-- ==== Sys2Proof/Word.lean ====
section
/-! DEFINITION. The bit-vector types of the block's ports, registers and ROM words (rules R12, R39, R40, R48). -/

namespace Sys2Proof

/-- A SignalCode: bit 1 is line B, bit 0 is line A (rule R31). -/
abbrev SignalCode := BitVec 2

/-- An operation word, the value of `p_op` or `c_op` (rule R40). -/
abbrev OpWord := BitVec 8

/-- A mode code, the value of `cfg_mode` and of `cfgMode` (rule R45). -/
abbrev ModeCode := BitVec 2

/-- The Buxton automaton state `fsmState` (rule R16). -/
abbrev FsmRow := BitVec 3

/-- A `STD_ROM` entry, a 2-bit two's-complement delta (rule R47). -/
abbrev StdWord := BitVec 2

/-- A `FULL_ROM` or `HALF_ROM` entry: `CCW`, `CW`, then the 4-bit next state (rule R48). -/
abbrev RomWord := BitVec 6

end Sys2Proof
end

