-- ==== Sys2Proof/Config.lean ====
section
/-! DEFINITION. The implementation parameters of rule R6, the three modes of rules R2 and R45, and the one free
value. -/

namespace Sys2Proof

/-- The three decoding modes, fixed at construction (rule R2). -/
inductive Mode where
  | standard
  | buxtonFull
  | buxtonHalf
  deriving DecidableEq, Repr

/-- The encoding of `cfg_mode` and `cfgMode` (rule R45). -/
def Mode.code : Mode → ModeCode
  | .standard => 0b00#2
  | .buxtonFull => 0b01#2
  | .buxtonHalf => 0b10#2

/-- The mode a code stands for; `0b11` encodes none (rule R45). -/
def Mode.ofCode (c : ModeCode) : Option Mode :=
  if c = 0b00#2 then some .standard
  else if c = 0b01#2 then some .buxtonFull
  else if c = 0b10#2 then some .buxtonHalf
  else none

/-- `SAME_CYCLE_ORDER`: how a producer and a consumer operation in one cycle are ordered (rules R6, R34). -/
inductive SameCycleOrder where
  | consumerFirst
  | producerFirst
  deriving DecidableEq, Repr

/-- `OVERFLOW_POLICY`: what an increment past `±CNT_MAX` does (rules R6, R17). -/
inductive OverflowPolicy where
  | saturate
  | fault
  deriving DecidableEq, Repr

/-- The parameters of rule R6 that a model takes as configuration arguments. -/
structure Params where
  /-- `COUNTER_W`, the width of `rawCounter`. -/
  counterW : Nat
  /-- `STEPS_W`, the width of `cfgSpc`. -/
  stepsW : Nat
  /-- `TIME_W`, the width of `now_ms` and `lastTs`. -/
  timeW : Nat
  /-- `FAST_MS`, the first acceleration threshold. -/
  fastMs : Nat
  /-- `SLOW_MS`, the second acceleration threshold. -/
  slowMs : Nat
  /-- `FAST_MUL`, the multiplier below `FAST_MS`. -/
  fastMul : Nat
  /-- `SLOW_MUL`, the multiplier from `FAST_MS` up to but not including `SLOW_MS`. -/
  slowMul : Nat
  /-- `BASE_MUL`, the multiplier at or above `SLOW_MS`. -/
  baseMul : Nat
  /-- `SAME_CYCLE_ORDER`. -/
  order : SameCycleOrder
  /-- `OVERFLOW_POLICY`. -/
  overflow : OverflowPolicy
  deriving DecidableEq, Repr

/-- The defaults of rule R6: the hardware specified. -/
def Params.default : Params :=
  { counterW := 16, stepsW := 8, timeW := 32, fastMs := 25, slowMs := 60,
    fastMul := 4, slowMul := 2, baseMul := 1, order := .consumerFirst, overflow := .saturate }

/-- `CNT_MAX`, the largest magnitude `rawCounter` may hold (rules R6, R17). -/
def Params.cntMax (p : Params) : Nat := 2 ^ (p.counterW - 1) - 1

/-- `RESP_W`, the width of the response (rule R6). -/
def Params.respW (p : Params) : Nat := p.counterW + 2

/-- The response of the `n`th accelerated result that does not fit the `w` bits of `r_data`. A free value: rule R74
shows the fit for the default multipliers, and no rule states a result past it (log 14). -/
opaque Config.freeResponse : Nat → (w : Nat) → BitVec w

end Sys2Proof
end

