-- ==== Sys2Proof/Syntax.lean ====
section
/-! DEFINITION. The operations of spec/opcode_table.json, the two operation ports, the values on the input ports
of one cycle (rule R39), and the lines of the assembler of rules R50 and R51. -/

namespace Sys2Proof

/-- The two operation ports, one per context (rules R39, R85). -/
inductive Port where
  | producer
  | consumer
  deriving DecidableEq, Repr

/-- The operations, one constructor per row of the opcode table (rule R41). NOP is legal on both ports and its
effect differs between them (rule R78), so it carries its port (log 7). -/
inductive Instr where
  /-- NOP (rule R78). -/
  | nop (port : Port)
  /-- DECODE (rule R52). -/
  | decode (code : SignalCode)
  /-- INIT (rule R75). -/
  | init (code : SignalCode)
  /-- RESET (rule R76). -/
  | reset
  /-- XRAW (rule R64). -/
  | xraw
  /-- XNORM (rule R69). -/
  | xnorm
  /-- XACC (rule R70). Its operand `now_ms` comes from its port, not from the word (rule R44). -/
  | xacc
  deriving DecidableEq, Repr

/-- The values on the input ports at one rising edge of `clk` (rule R39). `cfgSpc` and `nowMs` are read modulo the
widths of their ports where they are sampled (log 6). -/
structure Pins where
  /-- `rst`: 1 while the block is being constructed. -/
  rst : Bool
  /-- `cfg_mode`. -/
  cfgMode : ModeCode
  /-- `cfg_spc`. -/
  cfgSpc : Nat
  /-- `p_op`. -/
  pOp : OpWord
  /-- `c_op`. -/
  cOp : OpWord
  /-- `now_ms`. -/
  nowMs : Nat
  deriving DecidableEq, Repr

/-- A cycle in which the environment presents no request: NOP on both ports (rules R50, R78). -/
def Pins.idle : Pins :=
  { rst := false, cfgMode := 0b00#2, cfgSpc := 0, pOp := 0x00#8, cOp := 0x00#8, nowMs := 0 }

/-- A line of an assembler program, one cycle each (rule R50). -/
inductive Line where
  /-- `<pinstr> || <cinstr> [@now]`. -/
  | cycle (p c : Instr) (now : Option Nat)
  /-- `rst mode=<mode> spc=<n>`. -/
  | rst (mode : Mode) (spc : Nat)
  deriving DecidableEq, Repr

/-- `- || -`. -/
def Line.idle : Line := .cycle (.nop .producer) (.nop .consumer) none

/-- A line with DECODE alone: NOP stands on the other port (rule R50). -/
def Line.decode (c : SignalCode) : Line := .cycle (.decode c) (.nop .consumer) none

/-- A line with one consumer instruction alone: NOP stands on the other port (rule R50). -/
def Line.consume (i : Instr) : Line := .cycle (.nop .producer) i none

/-- The codes of the pseudo-instruction `CW_CYCLE` (rule R51). -/
def cwCodes : List SignalCode := [0b10#2, 0b00#2, 0b01#2, 0b11#2]

/-- The codes of the pseudo-instruction `CCW_CYCLE` (rule R51). -/
def ccwCodes : List SignalCode := [0b01#2, 0b00#2, 0b10#2, 0b11#2]

/-- `CW_CYCLE` (rule R51). -/
def cwCycle : List Line := cwCodes.map Line.decode

/-- `CCW_CYCLE` (rule R51). -/
def ccwCycle : List Line := ccwCodes.map Line.decode

/-- `IDLE n` (rule R51). -/
def idleLines (n : Nat) : List Line := List.replicate n Line.idle

end Sys2Proof
end

