-- ==== Sys2Proof/WellFormed.lean ====
section
/-! DEFINITION. What counts as well formed: parameters (rule R6), an operation on a port (rules R41, R85), the values
on the input ports (rules R39, R45, R46) and a line of a program (rule R50). -/

namespace Sys2Proof

/-- The legal values of rule R6. Every multiplier is legal (log 5). -/
abbrev Params.Legal (p : Params) : Prop :=
  4 ≤ p.counterW ∧ 1 ≤ p.stepsW ∧ 8 ≤ p.timeW ∧ p.fastMs < p.slowMs ∧ p.slowMs < 2 ^ p.timeW

/-- On which port an operation is legal (the "legal on" column of rule R41). -/
def Instr.legalOn (port : Port) : Instr → Bool
  | .nop q => q == port
  | .decode _ => port == .producer
  | .init _ => port == .consumer
  | .reset => port == .consumer
  | .xraw => port == .consumer
  | .xnorm => port == .consumer
  | .xacc => port == .consumer

/-- The port an operation is legal on. -/
def Instr.port : Instr → Port
  | .nop q => q
  | .decode _ => .producer
  | .init _ => .consumer
  | .reset => .consumer
  | .xraw => .consumer
  | .xnorm => .consumer
  | .xacc => .consumer

/-- The operations that return a result (rule R49). -/
def Instr.extracts : Instr → Bool
  | .nop _ => false
  | .decode _ => false
  | .init _ => false
  | .reset => false
  | .xraw => true
  | .xnorm => true
  | .xacc => true

/-- The configuration inputs name a construction a model admits (rules R45, R46, R91). -/
def Pins.configOk (p : Params) (x : Pins) : Bool :=
  match Mode.ofCode x.cfgMode with
  | none => false
  | some .standard => x.cfgSpc % 2 ^ p.stepsW != 0
  | some .buxtonFull => true
  | some .buxtonHalf => true

/-- The values fit the widths of their ports (rule R39). -/
def Pins.fits (p : Params) (x : Pins) : Bool :=
  decide (x.cfgSpc < 2 ^ p.stepsW) && decide (x.nowMs < 2 ^ p.timeW)

/-- A line is well formed: each instruction on its legal port, a time where XACC reads one, a legal configuration
(rules R46, R50). -/
def Line.wf (p : Params) : Line → Bool
  | .cycle pi ci now =>
      pi.legalOn .producer && ci.legalOn .consumer && (ci != .xacc || now.isSome) &&
      decide (now.getD 0 < 2 ^ p.timeW)
  | .rst mode spc => decide (spc < 2 ^ p.stepsW) && (mode != .standard || spc != 0)

end Sys2Proof
end

