-- ==== Sys2Proof/Decode.lean ====
section
/-! DEFINITION. Port decoding (rules R40 to R43), the encoder, and the assembler of rules R50 and R51. -/

namespace Sys2Proof

/-- `op = w[7:5]` (rule R40). -/
def OpWord.op (w : OpWord) : BitVec 3 := w.extractLsb' 5 3

/-- `rsv = w[4:2]` (rule R40). -/
def OpWord.rsv (w : OpWord) : BitVec 3 := w.extractLsb' 2 3

/-- `code = w[1:0]`, bit 1 line B, bit 0 line A (rules R40, R44). -/
def OpWord.code (w : OpWord) : SignalCode := w.extractLsb' 0 2

/-- Why a word is illegal on a port, named after the clauses of rule R43. -/
inductive Illegal where
  /-- R43 (a): `rsv != 0b000`. -/
  | reservedBits
  /-- R43 (b): `op = 0b111`. -/
  | reservedOp
  /-- R43 (c): a code where the operation takes none. -/
  | nonzeroCode
  /-- R43 (d), (e): an operation on the wrong port. -/
  | wrongPort
  deriving DecidableEq, Repr

/-- An operation that only the consumer may issue and that takes no code (rules R41, R43). -/
def consumerOnly (port : Port) (c : SignalCode) (i : Instr) : Except Illegal Instr :=
  match port with
  | .producer => .error .wrongPort
  | .consumer => if c = 0b00#2 then .ok i else .error .nonzeroCode

/-- How a port reads its word: every 8-bit value gives an operation, or the reason why it is illegal (rules R42, R43). -/
def portDecode (port : Port) (w : OpWord) : Except Illegal Instr :=
  if OpWord.rsv w ≠ 0b000#3 then .error .reservedBits
  else if OpWord.op w = 0b000#3 then
    if OpWord.code w = 0b00#2 then .ok (.nop port) else .error .nonzeroCode
  else if OpWord.op w = 0b001#3 then
    match port with
    | .producer => .ok (.decode (OpWord.code w))
    | .consumer => .error .wrongPort
  else if OpWord.op w = 0b010#3 then
    match port with
    | .producer => .error .wrongPort
    | .consumer => .ok (.init (OpWord.code w))
  else if OpWord.op w = 0b011#3 then consumerOnly port (OpWord.code w) .reset
  else if OpWord.op w = 0b100#3 then consumerOnly port (OpWord.code w) .xraw
  else if OpWord.op w = 0b101#3 then consumerOnly port (OpWord.code w) .xnorm
  else if OpWord.op w = 0b110#3 then consumerOnly port (OpWord.code w) .xacc
  else .error .reservedOp

/-- The operation a port performs on a word: an illegal word acts exactly as NOP on its port (rules R42, R43, R78). -/
def portInstr (port : Port) (w : OpWord) : Instr :=
  match portDecode port w with
  | .ok i => i
  | .error _ => .nop port

/-- A word from its three fields (rule R40). -/
def packWord (op rsv : BitVec 3) (code : SignalCode) : OpWord := (op ++ rsv) ++ code

/-- The word an operation assembles to (rule R41). -/
def encode : Instr → OpWord
  | .nop _ => packWord 0b000#3 0b000#3 0b00#2
  | .decode c => packWord 0b001#3 0b000#3 c
  | .init c => packWord 0b010#3 0b000#3 c
  | .reset => packWord 0b011#3 0b000#3 0b00#2
  | .xraw => packWord 0b100#3 0b000#3 0b00#2
  | .xnorm => packWord 0b101#3 0b000#3 0b00#2
  | .xacc => packWord 0b110#3 0b000#3 0b00#2

/-- The port on which a word is legal; the consumer's for a word legal on both or on neither. -/
def wordPort (w : OpWord) : Port :=
  match portDecode .consumer w with
  | .ok _ => .consumer
  | .error _ =>
    match portDecode .producer w with
    | .ok _ => .producer
    | .error _ => .consumer

/-- The 8-bit word whose low `nbits` bits are those of `w`, the rest zero. -/
def tableWord (nbits w : Nat) : OpWord := BitVec.ofNat 8 (w % 2 ^ nbits)

/-- What the decoder reads from a word of the opcode table, on the port the table gives that word. -/
def decodeTableWord (nbits w : Nat) : Option Instr :=
  match portDecode (wordPort (tableWord nbits w)) (tableWord nbits w) with
  | .ok i => some i
  | .error _ => none

/-- The port values a line of a program stands for (rule R50). -/
def Line.pins : Line → Pins
  | .cycle p c now =>
      { Pins.idle with pOp := encode p, cOp := encode c, nowMs := now.getD 0 }
  | .rst mode spc => { Pins.idle with rst := true, cfgMode := mode.code, cfgSpc := spc }

/-- A program as the port values of its cycles. -/
def assemble (prog : List Line) : List Pins := prog.map Line.pins

/-- `<code>` of rule R50: two binary digits, B then A. -/
def codeText (c : SignalCode) : String :=
  (if c.getLsbD 1 then "1" else "0") ++ (if c.getLsbD 0 then "1" else "0")

/-- `<pinstr>` and `<cinstr>` of rule R50. -/
def Instr.text : Instr → String
  | .nop _ => "-"
  | .decode c => "DECODE " ++ codeText c
  | .init c => "INIT " ++ codeText c
  | .reset => "RESET"
  | .xraw => "XRAW"
  | .xnorm => "XNORM"
  | .xacc => "XACC"

/-- The mode's name in a line that begins `rst` (rule R50). -/
def Mode.text : Mode → String
  | .standard => "Standard"
  | .buxtonFull => "BuxtonFull"
  | .buxtonHalf => "BuxtonHalf"

/-- A line in the assembler's own syntax (rule R50). -/
def Line.text : Line → String
  | .cycle p c none => p.text ++ " || " ++ c.text
  | .cycle p c (some t) => p.text ++ " || " ++ c.text ++ " @" ++ toString t
  | .rst mode spc => "rst mode=" ++ mode.text ++ " spc=" ++ toString spc

end Sys2Proof
end

