-- ==== Sys2Proof/Machine/State.lean ====
section
/-! DEFINITION. The state of the block: the eight registers of rule R12, and beside them the parameters and the input
port values that rule R27 calls inputs of the step, and a counter for the free value. Plain data. The reasons a step
can stop. -/

namespace Sys2Proof.Machine

/-- Why the machine stops with a fault. -/
inductive Fault where
  /-- Raised by DECODE when `rawCounter` would pass `±CNT_MAX` under `OVERFLOW_POLICY = Fault` (rules R10, R17). The
  run ends, so no later operation clears it. Safe: the hardware saturates and goes on; this is the spec's own
  alternative. -/
  | counterOverflow
  deriving DecidableEq, Repr

/-- Why the model has no meaning for a cycle. -/
inductive Refusal where
  /-- Raised by an arm of `exec` whose instruction has no meaning yet. No arm is such an arm. Safe. -/
  | notModelled (mnemonic : String)
  /-- Raised at an edge with `rst = 0` when construction asked for `cfg_mode = 11` or for Standard with `cfg_spc = 0`
  (rule R91). Safe: no run is made from such a construction. -/
  | badConfiguration
  /-- Raised by DECODE in a Buxton mode when `fsmState` selects no row of the table, which no reachable state does
  (rules R16, R29; log 8). Safe. -/
  | noRomRow
  deriving DecidableEq, Repr

/-- The state. -/
structure State where
  /-- The implementation parameters; no step changes them (rule R6; log 2). -/
  params : Params
  /-- `cfgMode` (rule R13). -/
  cfgMode : ModeCode
  /-- `cfgSpc` (rule R14). -/
  cfgSpc : Nat
  /-- `prevCode` (rule R15). -/
  prevCode : SignalCode
  /-- `fsmState` (rule R16). -/
  fsmState : FsmRow
  /-- `rawCounter` (rule R17). -/
  rawCounter : Int
  /-- `lastTs` (rule R18). -/
  lastTs : Nat
  /-- `respValid` (rule R19). -/
  respValid : Bool
  /-- `respData` (rule R19). -/
  respData : Int
  /-- How many free values the block has drawn; the model's own counter, not the spec's (log 14). -/
  draws : Nat
  /-- The values on the input ports for the coming edge (rules R27, R39; log 3). -/
  pins : Pins
  /-- The values on the input ports for the edges after it, soonest first; idle cycles after its end (log 3). -/
  schedule : List Pins
  deriving DecidableEq, Repr

/-- What an operation or a step answers. -/
abbrev Result := Host.Outcome State Fault Refusal

/-- The state right after construction with the default parameters (rules R12, R90). The mode and the divisor come
from inputs; Standard with 4 steps per click is this model's choice (log 1). -/
def State.reset : State :=
  { params := Params.default, cfgMode := Mode.standard.code, cfgSpc := 4, prevCode := 0b00#2, fsmState := 0#3,
    rawCounter := 0, lastTs := 0, respValid := false, respData := 0, draws := 0, pins := Pins.idle, schedule := [] }

/-- The mode the block was constructed in; none for the reserved code (rules R13, R45). -/
def State.mode (s : State) : Option Mode := Mode.ofCode s.cfgMode

/-- The configuration is one no run is made from (rules R14, R91). Construction forces `cfgSpc` to 1 outside Standard,
so a zero divisor means Standard with `cfg_spc = 0`. -/
abbrev State.BadConfig (s : State) : Prop := s.mode = none ∨ s.cfgSpc = 0

/-- The output port `r_valid` (rules R19, R39). -/
def State.rValid (s : State) : Bool := s.respValid

/-- The output port `r_data`, `RESP_W` bits, two's complement (rules R19, R39). -/
def State.rData (s : State) : BitVec s.params.respW := BitVec.ofInt s.params.respW s.respData

end Sys2Proof.Machine
end

