-- ==== Sys2Proof/Machine/Ops.lean ====
section
/-! DEFINITION. The named operations over the registers: one writer per register, running one operation after another,
the admission of rule R91, the arithmetic of rules R9 and R17, and the advance of the input ports. The block has no
memory (rule R28) and takes no exceptions (rules R79, R82), so there are no such operations. -/

namespace Sys2Proof.Machine

/-- Run `f` on the state `r` answers; a fault or a refusal stays. -/
def andThen (r : Result) (f : State → Result) : Result :=
  match r with
  | .next t => f t
  | .fault e => .fault e
  | .refused e => .refused e

/-- `rawCounter <- v`. -/
def State.setCounter (s : State) (v : Int) : State := { s with rawCounter := v }

/-- `prevCode <- c`. -/
def State.setPrevCode (s : State) (c : SignalCode) : State := { s with prevCode := c }

/-- `fsmState <- r`. -/
def State.setFsmState (s : State) (r : FsmRow) : State := { s with fsmState := r }

/-- `lastTs <- t`. -/
def State.setLastTs (s : State) (t : Nat) : State := { s with lastTs := t }

/-- `respValid <- v; respData <- d`. -/
def State.setResponse (s : State) (v : Bool) (d : Int) : State := { s with respValid := v, respData := d }

/-- One more free value is drawn (log 14). -/
def State.draw (s : State) : State := { s with draws := s.draws + 1 }

/-- The next edge sees the next entry of the schedule, or an idle cycle after its end (log 3). -/
def State.advance (s : State) : State :=
  { s with pins := s.schedule.headD Pins.idle, schedule := s.schedule.tail }

/-- A model makes no run from a bad configuration (rule R91): no operation of such a block has a meaning. -/
def admitted (s : State) (r : Result) : Result :=
  if s.BadConfig then .refused .badConfiguration else r

/-- `tdiv(a, b)`, the quotient rounded toward zero (rule R9). -/
def tdiv (a : Int) (b : Nat) : Int := a.sign * ((a.natAbs / b : Nat) : Int)

/-- `v` is a `RESP_W`-bit two's-complement value (rules R7, R74). -/
abbrev fitsResp (p : Params) (v : Int) : Prop :=
  -(2 ^ (p.respW - 1) : Int) ≤ v ∧ v < (2 ^ (p.respW - 1) : Int)

/-- `sat_add(v, d)` (rule R17). -/
def satAdd (p : Params) (v d : Int) : Except Fault Int :=
  if -(p.cntMax : Int) ≤ v + d ∧ v + d ≤ (p.cntMax : Int) then .ok (v + d)
  else
    match p.overflow with
    | .saturate => .ok v
    | .fault => .error .counterOverflow

/-- `rawCounter <- sat_add(rawCounter, d)`, the only way DECODE changes the counter (rule R17). -/
def addCount (d : Int) (s : State) : Result :=
  match satAdd s.params s.rawCounter d with
  | .ok n => .next (s.setCounter n)
  | .error e => .fault e

end Sys2Proof.Machine
end

