-- ==== Sys2Proof/Machine/Flags.lean ====
section
/-! DEFINITION. The block has no status flags and no condition codes (rule R24). What it has in their place: the
direction flags in a Buxton ROM word, which live only inside a DECODE (rules R24, R48), and the response registers
(rule R49). -/

namespace Sys2Proof.Machine

/-- `res[3:0]`, the next automaton state; bit 3 is 0 in every stored word, so the 3-bit register holds it (rule R48). -/
def romNext (w : RomWord) : FsmRow := w.extractLsb' 0 3

/-- `res[4]`, the direction flag CW (rule R48). -/
def romCw (w : RomWord) : Bool := w.getLsbD 4

/-- `res[5]`, the direction flag CCW (rule R48). -/
def romCcw (w : RomWord) : Bool := w.getLsbD 5

/-- What a ROM word's flags add to `rawCounter`: CW is tested first (rule R57). -/
def romDelta (w : RomWord) : Int := if romCw w then 1 else if romCcw w then -1 else 0

/-- `UpdateResp`: the response registers at the end of a cycle, for the consumer operation's result (rule R49). -/
def updateResp (res : Option Int) (s : State) : State :=
  match res with
  | none => s.setResponse false s.respData
  | some v => s.setResponse true v

end Sys2Proof.Machine
end

