-- ==== Sys2Proof/Machine/Accumulate.lean ====
section
/-! DEFINITION. step_accumulator: the atomic read, test and clear of `rawCounter`, and XRAW (rules R64 to R68). -/

namespace Sys2Proof.Machine

/-- The extraction fires: the counter's magnitude has reached the divisor (rule R64). -/
abbrev State.Fires (s : State) : Prop := s.cfgSpc ≤ s.rawCounter.natAbs

/-- `XRaw`: the state it leaves and its result (rule R64). -/
def xRaw (s : State) : State × Int :=
  if s.Fires then (s.setCounter 0, tdiv s.rawCounter s.cfgSpc) else (s, 0)

/-- XRAW (rule R64). -/
def execXraw (s : State) : Result := admitted s (.next (updateResp (some (xRaw s).2) (xRaw s).1))

end Sys2Proof.Machine
end

