-- ==== Sys2Proof/Machine/Operands.lean ====
section
/-! DEFINITION. The operands that come from ports beside the operation word (rules R39, R44, R46). The only operand
inside a word is the code of DECODE and INIT, which the decoder hands over. -/

namespace Sys2Proof.Machine

/-- `now_ms` as sampled at this edge: `TIME_W` bits, unsigned (rules R39, R44; log 6). -/
def nowOf (s : State) : Nat := s.pins.nowMs % 2 ^ s.params.timeW

/-- `cfg_spc` as sampled at this edge: `STEPS_W` bits, unsigned (rules R39, R46; log 6). -/
def spcOf (s : State) : Nat := s.pins.cfgSpc % 2 ^ s.params.stepsW

end Sys2Proof.Machine
end

