-- ==== Sys2Proof/Machine/Delta.lean ====
section
/-! DEFINITION. delta_extractor: XNORM and XACC (rules R69 to R74). -/

namespace Sys2Proof.Machine

/-- `XNorm` (rule R69). -/
def xNorm (s : State) : State × Int := ((xRaw s).1, (xRaw s).2.sign)

/-- `e = (t - lastTs) mod 2^TIME_W` (rules R70, R71). -/
def elapsed (p : Params) (t last : Nat) : Nat := (((t : Int) - (last : Int)) % ((2 ^ p.timeW : Nat) : Int)).toNat

/-- The multiplier for an elapsed time; both comparisons are strict (rules R70, R72). -/
def accelMul (p : Params) (e : Nat) : Nat :=
  if e < p.fastMs then p.fastMul else if e < p.slowMs then p.slowMul else p.baseMul

/-- The result `v` of a scaling, with the state it leaves. It fits the response with multipliers up to 4 (rule R74);
where it does not, its value is free and every other effect stands (log 14). -/
def scaledResult (v : Int) (s : State) : State × Int :=
  if fitsResp s.params v then (s, v)
  else (s.draw, (Config.freeResponse s.draws s.params.respW).toInt)

/-- `XAcc` at the time `t` (rule R70). -/
def xAcc (t : Nat) (s : State) : State × Int :=
  if (xRaw s).2 = 0 then ((xRaw s).1, 0)
  else
    scaledResult ((xRaw s).2 * (accelMul s.params (elapsed s.params t s.lastTs) : Int)) ((xRaw s).1.setLastTs t)

/-- XNORM (rule R69). -/
def execXnorm (s : State) : Result := admitted s (.next (updateResp (some (xNorm s).2) (xNorm s).1))

/-- XACC (rule R70), with `now_ms` read in its own cycle (rule R44). -/
def execXacc (s : State) : Result :=
  admitted s (.next (updateResp (some (xAcc (nowOf s) s).2) (xAcc (nowOf s) s).1))

end Sys2Proof.Machine
end

