-- ==== Sys2Proof/Machine/Fsm.lean ====
section
/-! DEFINITION. quadrature_decoder_fsm: the three ROMs and DECODE (rules R52 to R57). -/

namespace Sys2Proof.Machine

/-- `STD_ROM`, in index order (rule R53). -/
def stdRomTable : List StdWord :=
  [0b00#2, 0b01#2, 0b11#2, 0b00#2,
   0b11#2, 0b00#2, 0b00#2, 0b01#2,
   0b01#2, 0b00#2, 0b00#2, 0b11#2,
   0b00#2, 0b11#2, 0b01#2, 0b00#2]

/-- `STD_ROM[i]`. The table has an entry for every index (rule R29). -/
def stdRom (i : BitVec 4) : StdWord := stdRomTable.getD i.toNat 0b00#2

/-- `sext(STD_ROM[(prevCode ++ c)[3:0]])` (rules R29, R54). -/
def stdDelta (prev c : SignalCode) : Int := (stdRom (prev ++ c)).toInt

/-- `FULL_ROM`, rows 0 to 6, columns 00, 01, 10, 11 (rule R55). -/
def fullRomTable : List (List RomWord) :=
  [[0x00#6, 0x02#6, 0x04#6, 0x00#6],
   [0x03#6, 0x00#6, 0x01#6, 0x20#6],
   [0x03#6, 0x02#6, 0x00#6, 0x00#6],
   [0x03#6, 0x02#6, 0x01#6, 0x00#6],
   [0x06#6, 0x00#6, 0x04#6, 0x00#6],
   [0x06#6, 0x05#6, 0x00#6, 0x10#6],
   [0x06#6, 0x05#6, 0x04#6, 0x00#6]]

/-- `HALF_ROM`, rows 0 to 5, columns 00, 01, 10, 11 (rule R56). -/
def halfRomTable : List (List RomWord) :=
  [[0x03#6, 0x02#6, 0x01#6, 0x00#6],
   [0x13#6, 0x00#6, 0x01#6, 0x00#6],
   [0x23#6, 0x02#6, 0x00#6, 0x00#6],
   [0x03#6, 0x05#6, 0x04#6, 0x00#6],
   [0x03#6, 0x03#6, 0x04#6, 0x20#6],
   [0x03#6, 0x05#6, 0x03#6, 0x10#6]]

/-- `ROM[s][c]`; none where the table has no row `s` (rule R29). -/
def romCell (table : List (List RomWord)) (s : FsmRow) (c : SignalCode) : Option RomWord :=
  match table[s.toNat]? with
  | some row => row[c.toNat]?
  | none => none

/-- The table of a Buxton mode; Standard has none (rule R45). -/
def romOf : Mode → List (List RomWord)
  | .standard => []
  | .buxtonFull => fullRomTable
  | .buxtonHalf => halfRomTable

/-- `StdDecode` (rule R54). -/
def stdDecode (c : SignalCode) (s : State) : Result :=
  if c = s.prevCode then .next s
  else andThen (addCount (stdDelta s.prevCode c) s) fun t => .next (t.setPrevCode c)

/-- `BxDecode` (rule R57): the automaton moves, then a word with a direction flag counts. -/
def bxDecode (table : List (List RomWord)) (c : SignalCode) (s : State) : Result :=
  match romCell table s.fsmState c with
  | none => .refused .noRomRow
  | some w =>
    if romDelta w = 0 then .next (s.setFsmState (romNext w))
    else addCount (romDelta w) (s.setFsmState (romNext w))

/-- `Decode` (rule R52): the engine of the mode fixed at construction. -/
def decodeOp (c : SignalCode) (s : State) : Result :=
  match s.mode with
  | none => .refused .badConfiguration
  | some .standard => stdDecode c s
  | some .buxtonFull => bxDecode fullRomTable c s
  | some .buxtonHalf => bxDecode halfRomTable c s

/-- DECODE (rule R52). It writes nothing to the response registers. -/
def execDecode (c : SignalCode) (s : State) : Result := admitted s (decodeOp c s)

end Sys2Proof.Machine
end

