-- ==== Sys2Proof/Machine/Lifecycle.lean ====
section
/-! DEFINITION. The lifecycle operations INIT, RESET and NOP (rules R75, R76, R78), and construction (rule R90). -/

namespace Sys2Proof.Machine

/-- `Init` (rule R75). In a Buxton mode the sample is not used. -/
def initOp (c : SignalCode) (s : State) : State :=
  if s.mode = some .standard then s.setPrevCode c else s.setFsmState 0#3

/-- `Reset` (rule R76). -/
def resetOp (s : State) : State :=
  if s.mode = some .standard then s.setCounter 0 else (s.setCounter 0).setFsmState 0#3

/-- INIT (rule R75). It returns no result (rule R49). -/
def execInit (c : SignalCode) (s : State) : Result := admitted s (.next (updateResp none (initOp c s)))

/-- RESET (rule R76). It returns no result (rule R49). -/
def execReset (s : State) : Result := admitted s (.next (updateResp none (resetOp s)))

/-- NOP (rule R78): no operation. On `c_op` the cycle has no result (rule R49). -/
def execNop (port : Port) (s : State) : Result :=
  match port with
  | .producer => admitted s (.next s)
  | .consumer => admitted s (.next (updateResp none s))

/-- `Construct`: what an edge with `rst = 1` sets, from the configuration inputs of that edge (rule R90). -/
def construct (s : State) : State :=
  { s with
    cfgMode := s.pins.cfgMode
    cfgSpc := if s.pins.cfgMode = Mode.standard.code then spcOf s else 1
    prevCode := 0b00#2
    fsmState := 0#3
    rawCounter := 0
    lastTs := 0
    respValid := false
    respData := 0 }

end Sys2Proof.Machine
end

