-- ==== Sys2Proof/Machine/Dispatch.lean ====
section
/-! DEFINITION. One operation on its port: each arm calls the operation's meaning. -/

namespace Sys2Proof.Machine

def exec (i : Instr) (s : State) : Host.Outcome State Fault Refusal :=
  match i with
  | .nop port => Sys2Proof.Machine.execNop port s
  | .decode code => Sys2Proof.Machine.execDecode code s
  | .init code => Sys2Proof.Machine.execInit code s
  | .reset => Sys2Proof.Machine.execReset s
  | .xraw => Sys2Proof.Machine.execXraw s
  | .xnorm => Sys2Proof.Machine.execXnorm s
  | .xacc => Sys2Proof.Machine.execXacc s

end Sys2Proof.Machine
end

