-- ==== Sys2Proof/Machine/Cycle.lean ====
section
/-! DEFINITION. One clock edge: construction, or one cycle of the two ports (rules R34, R90), and placing a word on the
port it is legal on. -/

namespace Sys2Proof.Machine

/-- The operation on `c_op` at this edge (rules R34, R42). -/
def consumerInstr (s : State) : Instr := portInstr .consumer s.pins.cOp

/-- The operation on `p_op` at this edge (rules R34, R42). -/
def producerInstr (s : State) : Instr := portInstr .producer s.pins.pOp

/-- `Cycle`: both operations, one after the other in `SAME_CYCLE_ORDER`, the second seeing the writes of the first
(rule R34). A consumer operation's meaning writes the response registers itself; DECODE touches neither of them, so
this is rule R34's order with its `UpdateResp` last (log 7). -/
def cycle (s : State) : Result :=
  match s.params.order with
  | .consumerFirst => andThen (exec (consumerInstr s) s) (exec (producerInstr s))
  | .producerFirst => andThen (exec (producerInstr s) s) (exec (consumerInstr s))

/-- One rising edge of `clk` (rules R34, R90). -/
def edge (s : State) : Result := if s.pins.rst then .next (construct s) else cycle s

/-- The port values with the word `w` on the port it is legal on and NOP on the other (rule R50). -/
def placeWord (x : Pins) (w : OpWord) : Pins :=
  match wordPort w with
  | .producer => { x with rst := false, pOp := w, cOp := 0x00#8 }
  | .consumer => { x with rst := false, pOp := 0x00#8, cOp := w }

end Sys2Proof.Machine
end

