-- ==== Sys2Proof/Machine/Step.lean ====
section
/-! DEFINITION. The step: one clock edge, after which the input ports show their next values. -/

namespace Sys2Proof.Machine

/-- One step (rules R34, R90). -/
def step (s : State) : Host.Outcome State Fault Refusal := andThen (edge s) fun t => .next t.advance

/-- `s` with a word presented at the coming edge, on the port it is legal on, `rst = 0` and NOP on the other port. The
block stores no program (rule R23): the environment presents one word per port and cycle (log 11). -/
def State.withFetchWord (s : State) (nbits w : Nat) : State :=
  { s with pins := placeWord s.pins (tableWord nbits w) }

end Sys2Proof.Machine
end

