-- ==== Sys2Proof/Safety.lean ====
section
/-! DEFINITION. The terms claims are stated in: which states the model admits, the invariant of rule R21, sequences of
operations, the ledger of rule R35, and rules R34 and R42 written out as they stand, for the model to be compared with. -/

namespace Sys2Proof.Machine

/-- The block may run: its configuration is one a model admits, a mode and a nonzero divisor (rules R14, R91). -/
abbrev State.Ready (s : State) : Prop := ¬ s.BadConfig

/-- How many rows of its automaton a mode can be in: the rows of its table (rule R16); a block in no Buxton mode
stays in row 0. -/
def rowCount : Option Mode → Nat
  | some .buxtonFull => 7
  | some .buxtonHalf => 6
  | some .standard => 1
  | none => 1

/-- What holds of every state that construction and the step can reach (rules R12 to R21, R74). -/
structure State.Inv (s : State) : Prop where
  /-- The parameters are legal (rule R6). -/
  legal : s.params.Legal
  /-- `fsmState` is a valid row of the selected table (rules R16, R21 (a)). -/
  row : s.fsmState.toNat < rowCount s.mode
  /-- No operation writes `prevCode` outside Standard mode (rule R15). -/
  prev : s.mode ≠ some .standard → s.prevCode = 0b00#2
  /-- `cfgSpc = 1` outside Standard mode (rules R14, R21 (b)). -/
  divisor : s.mode ≠ some .standard → s.cfgSpc = 1
  /-- `cfgSpc` has `STEPS_W` bits (rule R12). -/
  divisorFits : s.cfgSpc < 2 ^ s.params.stepsW
  /-- `-CNT_MAX <= rawCounter <= CNT_MAX` (rules R17, R21 (d)). -/
  counter : s.rawCounter.natAbs ≤ s.params.cntMax
  /-- `lastTs` has `TIME_W` bits (rules R12, R18). -/
  time : s.lastTs < 2 ^ s.params.timeW
  /-- `respData` has `RESP_W` bits, two's complement (rules R12, R74). -/
  response : fitsResp s.params s.respData

/-- The word `w` on the port of `i` is read as `i`, and no other word on no other port is (rules R41, R42). -/
def SoleWord (i : Instr) (w : OpWord) : Prop :=
  encode i = w ∧ ∀ port x, portDecode port x = .ok i ↔ port = i.port ∧ x = w

/-- `k` edges, up to the first stop; the host's `Core.run` over this machine. -/
def run : Nat → State → Result
  | 0, s => .next s
  | k + 1, s => andThen (step s) (run k)

/-- Operations one after another. -/
def execAll : List Instr → State → Result
  | [], s => .next s
  | i :: is, s => andThen (exec i s) (execAll is)

/-- The results the extractions among `ops` return, in order, up to the first stop. -/
def answers : List Instr → State → List Int
  | [], _ => []
  | i :: is, s =>
    match exec i s with
    | .next t => if i.extracts then t.respData :: answers is t else answers is t
    | .fault _ => []
    | .refused _ => []

/-- The delta DECODE reads in its table (rules R53, R55, R56). -/
def tableDelta (c : SignalCode) (s : State) : Int :=
  match s.mode with
  | none => 0
  | some .standard => stdDelta s.prevCode c
  | some .buxtonFull => ((romCell fullRomTable s.fsmState c).map romDelta).getD 0
  | some .buxtonHalf => ((romCell halfRomTable s.fsmState c).map romDelta).getD 0

/-- What an operation adds to `rawCounter`, after saturation (rule R35, `A`). -/
def added (s : State) : Instr → Int
  | .decode c => if (s.rawCounter + tableDelta c s).natAbs ≤ s.params.cntMax then tableDelta c s else 0
  | .nop _ => 0
  | .init _ => 0
  | .reset => 0
  | .xraw => 0
  | .xnorm => 0
  | .xacc => 0

/-- The value of `rawCounter` an operation clears (rule R35, `Z`). -/
def cleared (s : State) : Instr → Int
  | .decode _ => 0
  | .nop _ => 0
  | .init _ => 0
  | .reset => s.rawCounter
  | .xraw => if s.Fires then s.rawCounter else 0
  | .xnorm => if s.Fires then s.rawCounter else 0
  | .xacc => if s.Fires then s.rawCounter else 0

/-- The two sums of rule R35. -/
structure Ledger where
  /-- `A`, the deltas DECODE has applied. -/
  a : Int
  /-- `Z`, the values of `rawCounter` cleared. -/
  z : Int
  deriving DecidableEq, Repr

/-- The ledger after two operations, the first at `s`. -/
def Ledger.two (l : Ledger) (s : State) (first second : Instr) : Ledger :=
  match exec first s with
  | .next t => ⟨l.a + added s first + added t second, l.z + cleared s first + cleared t second⟩
  | .fault _ => l
  | .refused _ => l

/-- The ledger after one edge; construction opens a new one (rule R35: since construction). -/
def Ledger.edge (l : Ledger) (s : State) : Ledger :=
  if s.pins.rst then ⟨0, 0⟩
  else
    match s.params.order with
    | .consumerFirst => l.two s (consumerInstr s) (producerInstr s)
    | .producerFirst => l.two s (producerInstr s) (consumerInstr s)

/-- The ledger after `k` edges. -/
def Ledger.run : Nat → Ledger → State → Ledger
  | 0, l, _ => l
  | k + 1, l, s =>
    match step s with
    | .next t => Ledger.run k (l.edge s) t
    | .fault _ => l
    | .refused _ => l

/-- Two blocks no later cycle tells apart, while `lastTs` agrees or no XACC is issued (rule R77): they agree on
everything an operation of their mode reads, and on the response where it is valid. -/
structure Agree (s t : State) : Prop where
  params : s.params = t.params
  cfgMode : s.cfgMode = t.cfgMode
  cfgSpc : s.cfgSpc = t.cfgSpc
  pins : s.pins = t.pins
  schedule : s.schedule = t.schedule
  draws : s.draws = t.draws
  rawCounter : s.rawCounter = t.rawCounter
  /-- Standard reads `prevCode` and not `fsmState`. -/
  prevCode : s.mode = some .standard → s.prevCode = t.prevCode
  /-- The Buxton modes read `fsmState` and not `prevCode`. -/
  fsmState : s.mode ≠ some .standard → s.fsmState = t.fsmState
  respValid : s.respValid = t.respValid
  respData : s.respValid = true → s.respData = t.respData

/-- Rule R42's `PortDecode`, line by line; none is its NONE. -/
def rulePortDecode (w : OpWord) (port : Port) : Option Instr :=
  if w.extractLsb' 2 3 ≠ 0b000#3 then none
  else if w.extractLsb' 5 3 = 0b001#3 ∧ port = .producer then some (.decode (w.extractLsb' 0 2))
  else if w.extractLsb' 5 3 = 0b010#3 ∧ port = .consumer then some (.init (w.extractLsb' 0 2))
  else if w.extractLsb' 0 2 ≠ 0b00#2 then none
  else if w.extractLsb' 5 3 = 0b000#3 then none
  else if port = .consumer ∧ w.extractLsb' 5 3 = 0b011#3 then some .reset
  else if port = .consumer ∧ w.extractLsb' 5 3 = 0b100#3 then some .xraw
  else if port = .consumer ∧ w.extractLsb' 5 3 = 0b101#3 then some .xnorm
  else if port = .consumer ∧ w.extractLsb' 5 3 = 0b110#3 then some .xacc
  else none

/-- Rule R34's `ConsumerOp`: the state and the result. An operation that is not the consumer's does not reach it. -/
def ruleConsumerOp (t : Nat) (s : State) : Option Instr → State × Option Int
  | none => (s, none)
  | some (.init c) => (initOp c s, none)
  | some .reset => (resetOp s, none)
  | some .xraw => ((xRaw s).1, some (xRaw s).2)
  | some .xnorm => ((xNorm s).1, some (xNorm s).2)
  | some .xacc => ((xAcc t s).1, some (xAcc t s).2)
  | some (.nop _) => (s, none)
  | some (.decode _) => (s, none)

/-- Rule R34's `ProducerOp`. An operation that is not the producer's does not reach it. -/
def ruleProducerOp (s : State) : Option Instr → Result
  | none => .next s
  | some (.decode c) => decodeOp c s
  | some (.nop _) => .next s
  | some (.init _) => .next s
  | some .reset => .next s
  | some .xraw => .next s
  | some .xnorm => .next s
  | some .xacc => .next s

/-- Rule R49's `UpdateResp(T, S, res)`. -/
def ruleUpdateResp (t s : State) : Option Int → State
  | none => { t with respValid := false, respData := s.respData }
  | some v => { t with respValid := true, respData := v }

/-- Rule R34's `Cycle(S, p_op, c_op, now_ms)`, with `UpdateResp` last. -/
def ruleCycle (s : State) : Result :=
  match s.params.order with
  | .consumerFirst =>
    andThen
      (ruleProducerOp (ruleConsumerOp (nowOf s) s (rulePortDecode s.pins.cOp .consumer)).1
        (rulePortDecode s.pins.pOp .producer))
      fun t => .next (ruleUpdateResp t s (ruleConsumerOp (nowOf s) s (rulePortDecode s.pins.cOp .consumer)).2)
  | .producerFirst =>
    andThen (ruleProducerOp s (rulePortDecode s.pins.pOp .producer)) fun u =>
      .next (ruleUpdateResp (ruleConsumerOp (nowOf s) u (rulePortDecode s.pins.cOp .consumer)).1 s
        (ruleConsumerOp (nowOf s) u (rulePortDecode s.pins.cOp .consumer)).2)

/-- The code list passes through no gray entry (Standard) and no emitting cell (Buxton), from `s` on (rule R60). -/
def Quiet : List SignalCode → State → Prop
  | [], _ => True
  | c :: cs, s =>
    (s.mode = some .standard → (s.prevCode ^^^ c) = 0b00#2 ∨ (s.prevCode ^^^ c) = 0b11#2) ∧
    (s.mode = some .buxtonFull → ¬ ((s.fsmState = 1#3 ∨ s.fsmState = 5#3) ∧ c = 0b11#2)) ∧
    (s.mode = some .buxtonHalf → ¬ ((s.fsmState = 1#3 ∨ s.fsmState = 2#3) ∧ c = 0b00#2) ∧
      ¬ ((s.fsmState = 4#3 ∨ s.fsmState = 5#3) ∧ c = 0b11#2)) ∧
    ∀ t, exec (.decode c) s = .next t → Quiet cs t

end Sys2Proof.Machine
end

