-- ==== Sys2Proof/Certificates/Slice0/Obligations.lean ====
section
/-! DEFINITION. The statements for the provers. Each docstring names the rule of spec/ it formalises. -/

open Sys2Proof Sys2Proof.Machine

/-! Construction, configuration, parameters -/

/-- Rules R12, R90, R6: the registers after construction. The mode, the divisor, the idle inputs and the counter of
free values are the model's choice (log 1, log 3, log 14). -/
def Obligations.ResetRegisterValues : Prop :=
  State.reset.prevCode = 0b00#2 ∧ State.reset.fsmState = 0#3 ∧ State.reset.rawCounter = 0 ∧
  State.reset.lastTs = 0 ∧ State.reset.respValid = false ∧ State.reset.respData = 0 ∧
  State.reset.params = Params.default ∧ State.reset.mode = some .standard ∧ State.reset.cfgSpc = 4 ∧
  State.reset.pins = Pins.idle ∧ State.reset.schedule = [] ∧ State.reset.draws = 0

/-- Rule R90: an edge with `rst = 1` sets every register from the configuration inputs alone; several such edges leave
what the last one alone leaves; the next edge with `rst = 0` is a cycle of rule R34; only construction writes the
configuration. That the ports then show the schedule's next entry, and `draws` stays, is the model's way with its own
fields (log 3, log 14). -/
def Obligations.ConstructionSetsEveryRegister : Prop :=
  (∀ s : State, s.pins.rst = true →
    step s = .next
      { params := s.params, cfgMode := s.pins.cfgMode
        cfgSpc := if s.pins.cfgMode = 0b00#2 then s.pins.cfgSpc % 2 ^ s.params.stepsW else 1
        prevCode := 0b00#2, fsmState := 0#3, rawCounter := 0, lastTs := 0, respValid := false, respData := 0
        draws := s.draws, pins := s.schedule.headD Pins.idle, schedule := s.schedule.tail }) ∧
  (∀ s t : State, s.pins.rst = true → step s = .next t → t.pins.rst = true →
    step t = step { s with pins := t.pins, schedule := t.schedule }) ∧
  (∀ s t : State, s.pins.rst = true → step s = .next t → t.pins.rst = false →
    step t = andThen (cycle t) fun u => .next u.advance) ∧
  (∀ s t : State, s.pins.rst = false → step s = .next t → t.cfgMode = s.cfgMode ∧ t.cfgSpc = s.cfgSpc)

/-- Rule R91: from a construction with `cfg_mode = 11`, or with Standard and `cfg_spc = 0`, the edge that releases
`rst` is refused; a Buxton mode with `cfg_spc = 0` runs. -/
def Obligations.BadConfigurationsRefusedAtRelease : Prop :=
  ∀ s u : State, s.params.Legal → s.pins.rst = true → step s = .next u → u.pins.rst = false →
    (s.pins.cfgMode = 0b11#2 → step u = .refused .badConfiguration) ∧
    (s.pins.cfgMode = 0b00#2 → s.pins.cfgSpc % 2 ^ s.params.stepsW = 0 → step u = .refused .badConfiguration) ∧
    (s.pins.cfgMode = 0b01#2 ∨ s.pins.cfgMode = 0b10#2 → ∃ t, step u = .next t)

/-- Rule R91: in a bad configuration no operation has a meaning. That `exec` itself says so, and that a divisor of 0 is
bad in every mode, are the model's choice (log 4). -/
def Obligations.NoOperationWithoutAdmission : Prop :=
  ∀ (i : Instr) (s : State), s.BadConfig → exec i s = .refused .badConfiguration

/-- Rule R98: `cfg_mode` and `cfg_spc` have no effect while `rst = 0`; a new mode or divisor comes only from a new
construction, which clears all other state. -/
def Obligations.ConfigurationReadOnlyDuringConstruction : Prop :=
  (∀ (s : State) (m : ModeCode) (n : Nat), s.pins.rst = false →
    step { s with pins := { s.pins with cfgMode := m, cfgSpc := n } } = step s) ∧
  (∀ s t : State, step s = .next t → t.cfgMode ≠ s.cfgMode ∨ t.cfgSpc ≠ s.cfgSpc →
    s.pins.rst = true ∧ t.prevCode = 0b00#2 ∧ t.fsmState = 0#3 ∧ t.rawCounter = 0 ∧ t.lastTs = 0 ∧
    t.respValid = false ∧ t.respData = 0)

/-- Rules R39, R86: `now_ms` is read only by XACC. -/
def Obligations.ClockReadOnlyByXacc : Prop :=
  ∀ (s : State) (n : Nat), s.pins.rst = true ∨ consumerInstr s ≠ .xacc →
    step { s with pins := { s.pins with nowMs := n } } = step s

/-! Encoding -/

/-- Rules R40, R41 and the list V-P1: the legal words, written out, on their ports. -/
def Obligations.SpecWordsDecode : Prop :=
  portDecode .producer 0x00#8 = .ok (.nop .producer) ∧ portDecode .consumer 0x00#8 = .ok (.nop .consumer) ∧
  portDecode .producer 0x20#8 = .ok (.decode 0b00#2) ∧ portDecode .producer 0x21#8 = .ok (.decode 0b01#2) ∧
  portDecode .producer 0x22#8 = .ok (.decode 0b10#2) ∧ portDecode .producer 0x23#8 = .ok (.decode 0b11#2) ∧
  portDecode .consumer 0x40#8 = .ok (.init 0b00#2) ∧ portDecode .consumer 0x43#8 = .ok (.init 0b11#2) ∧
  portDecode .consumer 0x60#8 = .ok .reset ∧ portDecode .consumer 0x80#8 = .ok .xraw ∧
  portDecode .consumer 0xA0#8 = .ok .xnorm ∧ portDecode .consumer 0xC0#8 = .ok .xacc ∧
  decodeTableWord 8 0x22 = some (.decode 0b10#2) ∧ decodeTableWord 8 0x43 = some (.init 0b11#2) ∧
  decodeTableWord 8 0xE0 = none

/-- Rule R42: what each port performs on each of the 256 words is `PortDecode`'s answer, NOP where that is NONE. -/
def Obligations.PortDecodeFollowsRule : Prop :=
  ∀ (port : Port) (w : OpWord),
    portInstr port w = (rulePortDecode w port).getD (.nop port)

/-- Rule R43: the illegal words are those of its clauses (a) to (e), and an illegal word acts as NOP on its port: the
operation beside it is untouched, and the consumer's response is as after NOP (`advance` is the model's input feed,
log 3). -/
def Obligations.IllegalWordsActAsNop : Prop :=
  (∀ (port : Port) (w : OpWord), (∃ e, portDecode port w = .error e) ↔
    (w.extractLsb' 2 3 ≠ 0#3 ∨ w.extractLsb' 5 3 = 0b111#3 ∨
     (w.extractLsb' 0 2 ≠ 0#2 ∧ w.extractLsb' 5 3 ≠ 0b001#3 ∧ w.extractLsb' 5 3 ≠ 0b010#3) ∨
     (port = .consumer ∧ w.extractLsb' 5 3 = 0b001#3) ∨
     (port = .producer ∧ 2 ≤ (w.extractLsb' 5 3).toNat))) ∧
  (∀ (s : State) (e : Illegal), s.pins.rst = false → portDecode .consumer s.pins.cOp = .error e →
    step s = step { s with pins := { s.pins with cOp := 0x00#8 } }) ∧
  (∀ (s : State) (e : Illegal), s.pins.rst = false → portDecode .producer s.pins.pOp = .error e →
    step s = step { s with pins := { s.pins with pOp := 0x00#8 } }) ∧
  (∀ (s : State) (e f : Illegal), s.Ready → s.pins.rst = false → portDecode .consumer s.pins.cOp = .error e →
    portDecode .producer s.pins.pOp = .error f → step s = .next { s with respValid := false }.advance)

/-- Rules R40, R41: an operation's word is read as that operation on its port, with its code whatever it is; and a word
read as an operation is that operation's word, on its port. -/
def Obligations.DecodeEncodeAgree : Prop :=
  (∀ i : Instr, portDecode i.port (encode i) = .ok i ∧ i.legalOn i.port = true) ∧
  (∀ (port : Port) (w : OpWord) (i : Instr), portDecode port w = .ok i →
    encode i = w ∧ i.port = port ∧ i.legalOn port = true ∧ portInstr port w = i)

/-- Rules R50, R51: a well-formed line's port values are read back as its operations and its time; the
pseudo-instructions expand to the rule's words. That an `rst` line and an idle line show 0 on the inputs they do not
name, and that a line without a time shows the time 0, is the model's choice (log 13). -/
def Obligations.AssembledLinesReadBack : Prop :=
  (∀ (p : Params) (pi ci : Instr) (now : Option Nat), (Line.cycle pi ci now).wf p = true →
    portInstr .producer (Line.cycle pi ci now).pins.pOp = pi ∧
    portInstr .consumer (Line.cycle pi ci now).pins.cOp = ci ∧
    (Line.cycle pi ci now).pins.rst = false ∧ (Line.cycle pi ci now).pins.fits p = true ∧
    ∀ t, now = some t → (Line.cycle pi ci now).pins.nowMs = t) ∧
  (∀ (p : Params) (m : Mode) (n : Nat), (Line.rst m n).wf p = true →
    (Line.rst m n).pins.rst = true ∧ (Line.rst m n).pins.configOk p = true ∧
    Mode.ofCode (Line.rst m n).pins.cfgMode = some m ∧ (Line.rst m n).pins.cfgSpc = n) ∧
  (assemble cwCycle).map Pins.pOp = [0x22#8, 0x20#8, 0x21#8, 0x23#8] ∧
  (assemble ccwCycle).map Pins.pOp = [0x21#8, 0x20#8, 0x22#8, 0x23#8] ∧
  (assemble cwCycle ++ assemble ccwCycle).map Pins.cOp = List.replicate 8 0x00#8 ∧
  ∀ n, assemble (idleLines n) = List.replicate n Pins.idle

/-! The step -/

/-- Rules R34, R42: the step runs the operations its two ports read, in `SAME_CYCLE_ORDER`, the second at the state the
first leaves, and then the ports show their next values (`advance`, the model's input feed, log 3). -/
def Obligations.StepRunsTheDecodedOperations : Prop :=
  ∀ (s : State) (ci pi : Instr), s.pins.rst = false → portDecode .consumer s.pins.cOp = .ok ci →
    portDecode .producer s.pins.pOp = .ok pi →
    (s.params.order = .consumerFirst →
      step s = andThen (exec ci s) fun t => andThen (exec pi t) fun u => .next u.advance) ∧
    (s.params.order = .producerFirst →
      step s = andThen (exec pi s) fun t => andThen (exec ci t) fun u => .next u.advance)

/-- Rules R41, R50, R78: an operation alone on its port is one cycle: a consumer operation is its own effect, DECODE is
its own effect and a response that is not valid. -/
def Obligations.LoneOperationIsOneCycle : Prop :=
  (∀ (s : State) (i : Instr), s.pins.rst = false → i.legalOn .consumer = true → s.pins.cOp = encode i →
    s.pins.pOp = 0x00#8 → step s = andThen (exec i s) fun t => .next t.advance) ∧
  (∀ (s : State) (c : SignalCode), s.pins.rst = false → s.pins.pOp = encode (.decode c) → s.pins.cOp = 0x00#8 →
    step s = andThen (exec (.decode c) s) fun t => .next { t with respValid := false }.advance)

/-- Rule R34: on every admitted state the step is the rule's own `Cycle`, with `PortDecode`, `ConsumerOp`, `ProducerOp`
and, last, `UpdateResp` (`advance` is the model's input feed, log 3). -/
def Obligations.StepIsRuleCycle : Prop :=
  ∀ s : State, s.Ready → s.pins.rst = false → step s = andThen (ruleCycle s) fun t => .next t.advance

/-! The tables and the saturating adder -/

/-- Rule R53: the table is the source's list; an entry is nonzero exactly for a one-bit change; the +1 entries are the
steps of 0→1→3→2→0 and the -1 entries the reverse steps. -/
def Obligations.StandardTableIsGrayCode : Prop :=
  stdRomTable.map BitVec.toInt = [0, 1, -1, 0, -1, 0, 0, 1, 1, 0, 0, -1, 0, -1, 1, 0] ∧
  (∀ a b : SignalCode, stdDelta a b = (stdRomTable.map BitVec.toInt).getD (4 * a.toNat + b.toNat) 0) ∧
  (∀ a b : SignalCode, stdDelta a b ≠ 0 ↔ (a ^^^ b = 0b01#2 ∨ a ^^^ b = 0b10#2)) ∧
  (∀ a b : SignalCode, stdDelta a b = 1 ↔
    (a = 0b00#2 ∧ b = 0b01#2) ∨ (a = 0b01#2 ∧ b = 0b11#2) ∨ (a = 0b11#2 ∧ b = 0b10#2) ∨ (a = 0b10#2 ∧ b = 0b00#2)) ∧
  (∀ a b : SignalCode, stdDelta a b = -stdDelta b a)

/-- Rule R55: the 28 cells, word, next state and delta, in row order; and exactly two cells emit. -/
def Obligations.FullTableCells : Prop :=
  fullRomTable.map (List.map fun w => (w.toNat, (romNext w).toNat, romDelta w)) =
    [[(0x00, 0, 0), (0x02, 2, 0), (0x04, 4, 0), (0x00, 0, 0)],
     [(0x03, 3, 0), (0x00, 0, 0), (0x01, 1, 0), (0x20, 0, -1)],
     [(0x03, 3, 0), (0x02, 2, 0), (0x00, 0, 0), (0x00, 0, 0)],
     [(0x03, 3, 0), (0x02, 2, 0), (0x01, 1, 0), (0x00, 0, 0)],
     [(0x06, 6, 0), (0x00, 0, 0), (0x04, 4, 0), (0x00, 0, 0)],
     [(0x06, 6, 0), (0x05, 5, 0), (0x00, 0, 0), (0x10, 0, 1)],
     [(0x06, 6, 0), (0x05, 5, 0), (0x04, 4, 0), (0x00, 0, 0)]] ∧
  (∀ (r : FsmRow) (c : SignalCode) (w : RomWord), romCell fullRomTable r c = some w →
    ((romCw w = true ↔ r = 5#3 ∧ c = 0b11#2) ∧ (romCcw w = true ↔ r = 1#3 ∧ c = 0b11#2)))

/-- Rule R56: the 24 cells, word, next state and delta, in row order; and the four emitting cells. -/
def Obligations.HalfTableCells : Prop :=
  halfRomTable.map (List.map fun w => (w.toNat, (romNext w).toNat, romDelta w)) =
    [[(0x03, 3, 0), (0x02, 2, 0), (0x01, 1, 0), (0x00, 0, 0)],
     [(0x13, 3, 1), (0x00, 0, 0), (0x01, 1, 0), (0x00, 0, 0)],
     [(0x23, 3, -1), (0x02, 2, 0), (0x00, 0, 0), (0x00, 0, 0)],
     [(0x03, 3, 0), (0x05, 5, 0), (0x04, 4, 0), (0x00, 0, 0)],
     [(0x03, 3, 0), (0x03, 3, 0), (0x04, 4, 0), (0x20, 0, -1)],
     [(0x03, 3, 0), (0x05, 5, 0), (0x03, 3, 0), (0x10, 0, 1)]] ∧
  (∀ (r : FsmRow) (c : SignalCode) (w : RomWord), romCell halfRomTable r c = some w →
    ((romCw w = true ↔ (r = 1#3 ∧ c = 0b00#2) ∨ (r = 5#3 ∧ c = 0b11#2)) ∧
     (romCcw w = true ↔ (r = 2#3 ∧ c = 0b00#2) ∨ (r = 4#3 ∧ c = 0b11#2))))

/-- Rule R29: every index the block forms in a Buxton mode selects a cell, and rule R48: the cell's 4-bit next state is
again a row of the same table. -/
def Obligations.TableAccessesInRange : Prop :=
  ∀ (s : State) (m : Mode) (c : SignalCode), s.Inv → s.mode = some m → m ≠ .standard →
    ∃ w, romCell (romOf m) s.fsmState c = some w ∧ (w.extractLsb' 0 4).toNat < rowCount s.mode ∧
      (romNext w).toNat = (w.extractLsb' 0 4).toNat ∧ ¬ (romCw w = true ∧ romCcw w = true)

/-- Rule R17, `sat_add`: the sum where it is in range, and past the range the old value or the fault, by the policy.
The sum is in range for every value of the counter's range but the two limits. -/
def Obligations.SaturatingAdd : Prop :=
  ∀ (p : Params) (v d : Int), v.natAbs ≤ p.cntMax → d.natAbs ≤ 1 →
    ((v + d).natAbs ≤ p.cntMax → satAdd p v d = .ok (v + d)) ∧
    (p.cntMax < (v + d).natAbs → p.overflow = .saturate → satAdd p v d = .ok v) ∧
    (p.cntMax < (v + d).natAbs → p.overflow = .fault → satAdd p v d = .error .counterOverflow) ∧
    (p.cntMax < (v + d).natAbs → v = p.cntMax ∧ d = 1 ∨ v = -(p.cntMax : Int) ∧ d = -1)

/-! DECODE -/

/-- Rule R52: DECODE runs the engine of the mode fixed at construction, with that mode's table, and writes nothing to
the response registers. Its words are `0x20 + c`, on `p_op` only. -/
def Obligations.DecodeRunsTheEngineOfItsMode : Prop :=
  (∀ c : SignalCode, SoleWord (.decode c) (0b001000#6 ++ c)) ∧
  (∀ (s : State) (c : SignalCode), s.Ready →
    (s.cfgMode = 0b00#2 → exec (.decode c) s = stdDecode c s) ∧
    (s.cfgMode = 0b01#2 → exec (.decode c) s = bxDecode fullRomTable c s) ∧
    (s.cfgMode = 0b10#2 → exec (.decode c) s = bxDecode halfRomTable c s)) ∧
  (∀ (s t : State) (c : SignalCode), exec (.decode c) s = .next t →
    t.respValid = s.respValid ∧ t.respData = s.respData)

/-- Rule R54: DECODE in Standard mode, its words `0x20 + c` on `p_op` only. A repeated code has no effect; any other
code is stored, jumps included, and its table entry is added to the counter; at the limit the micro-step is dropped, or
the run faults, by the policy. -/
def Obligations.StandardDecodeResult : Prop :=
  (∀ c : SignalCode, SoleWord (.decode c) (0b001000#6 ++ c)) ∧
  ∀ (s : State) (c : SignalCode) (d : Int), s.Ready → s.mode = some .standard →
    d = [0, 1, -1, 0, -1, 0, 0, 1, 1, 0, 0, -1, 0, -1, 1, 0].getD (4 * s.prevCode.toNat + c.toNat) 0 →
    (c = s.prevCode → exec (.decode c) s = .next s) ∧
    (c ≠ s.prevCode → (s.rawCounter + d).natAbs ≤ s.params.cntMax →
      exec (.decode c) s = .next { s with rawCounter := s.rawCounter + d, prevCode := c }) ∧
    (c ≠ s.prevCode → s.params.cntMax < (s.rawCounter + d).natAbs → s.params.overflow = .saturate →
      exec (.decode c) s = .next { s with prevCode := c }) ∧
    (c ≠ s.prevCode → s.params.cntMax < (s.rawCounter + d).natAbs → s.params.overflow = .fault →
      exec (.decode c) s = .fault .counterOverflow)

/-- Rule R57: DECODE in a Buxton mode, repeated codes included, its words `0x20 + c` on `p_op` only. The cell's low
bits are the next state; its direction flag, CW first, counts by one; at the limit the micro-step is dropped and the
automaton still moves, or the run faults, by the policy. -/
def Obligations.BuxtonDecodeResult : Prop :=
  (∀ c : SignalCode, SoleWord (.decode c) (0b001000#6 ++ c)) ∧
  ∀ (s : State) (m : Mode) (c : SignalCode) (w : RomWord) (d : Int), s.Ready → s.mode = some m → m ≠ .standard →
    romCell (romOf m) s.fsmState c = some w →
    d = (if w.getLsbD 4 then 1 else if w.getLsbD 5 then -1 else 0) →
    ((s.rawCounter + d).natAbs ≤ s.params.cntMax ∨ d = 0 →
      exec (.decode c) s = .next { s with fsmState := w.extractLsb' 0 3, rawCounter := s.rawCounter + d }) ∧
    (s.params.cntMax < (s.rawCounter + d).natAbs → d ≠ 0 → s.params.overflow = .saturate →
      exec (.decode c) s = .next { s with fsmState := w.extractLsb' 0 3 }) ∧
    (s.params.cntMax < (s.rawCounter + d).natAbs → d ≠ 0 → s.params.overflow = .fault →
      exec (.decode c) s = .fault .counterOverflow)

/-- Rules R63, R79, R101: DECODE completes on every state of the invariant, saturating. -/
def Obligations.DecodeCompletes : Prop :=
  ∀ (s : State) (c : SignalCode), s.Inv → s.Ready → s.params.overflow = .saturate →
    ∃ t, exec (.decode c) s = .next t

/-- Rules R15, R16, R18, R20, R52: what DECODE leaves unchanged, in every mode, and rule R21 (c): it changes the
counter by at most one. -/
def Obligations.DecodeFrame : Prop :=
  ∀ (s t : State) (c : SignalCode), exec (.decode c) s = .next t →
    t.lastTs = s.lastTs ∧ t.respValid = s.respValid ∧ t.respData = s.respData ∧ t.cfgMode = s.cfgMode ∧
    t.cfgSpc = s.cfgSpc ∧ t.params = s.params ∧ t.draws = s.draws ∧ t.pins = s.pins ∧ t.schedule = s.schedule ∧
    (s.mode ≠ some .standard → t.prevCode = s.prevCode) ∧ (s.mode = some .standard → t.fsmState = s.fsmState) ∧
    (t.rawCounter - s.rawCounter).natAbs ≤ 1

/-- Rules R10, R17: the machine faults only under `OVERFLOW_POLICY = Fault`, in a cycle whose producer word is a DECODE.
The default hardware never faults. -/
def Obligations.FaultsOnlyUnderFaultPolicy : Prop :=
  ∀ (s : State) (f : Fault), step s = .fault f →
    s.params.overflow = .fault ∧ s.pins.rst = false ∧ ∃ c, producerInstr s = .decode c

/-- Rules R51, R54 (d), R58, R59: from rest at 11 one electrical cycle of DECODEs counts ±4 in Standard, ±1 in
Buxton-Full and ±2 in Buxton-Half, where the counter has room, and ends at rest. -/
def Obligations.ElectricalCycleCounts : Prop :=
  ∀ s : State, s.Ready → s.rawCounter.natAbs + 4 ≤ s.params.cntMax →
    (s.mode = some .standard → s.prevCode = 0b11#2 →
      execAll (cwCodes.map .decode) s = .next { s with rawCounter := s.rawCounter + 4 } ∧
      execAll (ccwCodes.map .decode) s = .next { s with rawCounter := s.rawCounter - 4 }) ∧
    (s.mode = some .buxtonFull → s.fsmState = 0#3 →
      execAll (cwCodes.map .decode) s = .next { s with rawCounter := s.rawCounter + 1 } ∧
      execAll (ccwCodes.map .decode) s = .next { s with rawCounter := s.rawCounter - 1 }) ∧
    (s.mode = some .buxtonHalf → s.fsmState = 0#3 →
      execAll (cwCodes.map .decode) s = .next { s with rawCounter := s.rawCounter + 2 } ∧
      execAll (ccwCodes.map .decode) s = .next { s with rawCounter := s.rawCounter - 2 })

/-- Rule R54 (d): in Standard mode the four steps of the positive order from any code count +4, those of the negative
order -4. `n a` is the code after `a` in the order 0→1→3→2→0. -/
def Obligations.StandardCycleFromAnyCode : Prop :=
  ∀ (s : State) (n : SignalCode → SignalCode), s.Ready → s.mode = some .standard →
    s.rawCounter.natAbs + 4 ≤ s.params.cntMax →
    n 0b00#2 = 0b01#2 → n 0b01#2 = 0b11#2 → n 0b11#2 = 0b10#2 → n 0b10#2 = 0b00#2 →
    execAll ([n s.prevCode, n (n s.prevCode), n (n (n s.prevCode)), s.prevCode].map .decode) s =
      .next { s with rawCounter := s.rawCounter + 4 } ∧
    execAll ([n (n (n s.prevCode)), n (n s.prevCode), n s.prevCode, s.prevCode].map .decode) s =
      .next { s with rawCounter := s.rawCounter - 4 }

/-- Rule R60: a sequence of DECODEs through no gray entry and no emitting cell leaves the counter as it was; and a
repeated sample never counts twice. -/
def Obligations.QuietSequencesDoNotCount : Prop :=
  (∀ (cs : List SignalCode) (s t : State), Quiet cs s → execAll (cs.map .decode) s = .next t →
    t.rawCounter = s.rawCounter) ∧
  (∀ (s t u : State) (c : SignalCode), exec (.decode c) s = .next t → t.rawCounter ≠ s.rawCounter →
    exec (.decode c) t = .next u → u.rawCounter = t.rawCounter)

/-- Rule R61: the eight cells after which a second identical sample moves the automaton once more, each sample without
counting; and in each table no other cell than those four is such a cell. -/
def Obligations.RepeatAfterJumpMovesAgain : Prop :=
  (∀ m : Mode, m ≠ .standard → ∀ (r : FsmRow) (c : SignalCode) (w v : RomWord),
    romCell (romOf m) r c = some w → romCell (romOf m) (romNext w) c = some v →
    (romNext v ≠ romNext w ↔ (r, c) ∈ [(1#3, 0b01#2), (2#3, 0b10#2), (4#3, 0b01#2), (5#3, 0b10#2)])) ∧
  ∀ s : State, s.Ready →
    (s.mode = some .buxtonFull →
      ∀ x ∈ [(1#3, 0b01#2, 0#3, 2#3), (2#3, 0b10#2, 0#3, 4#3), (4#3, 0b01#2, 0#3, 2#3), (5#3, 0b10#2, 0#3, 4#3)],
        s.fsmState = x.1 → exec (.decode x.2.1) s = .next { s with fsmState := x.2.2.1 } ∧
          execAll [.decode x.2.1, .decode x.2.1] s = .next { s with fsmState := x.2.2.2 }) ∧
    (s.mode = some .buxtonHalf →
      ∀ x ∈ [(1#3, 0b01#2, 0#3, 2#3), (2#3, 0b10#2, 0#3, 1#3), (4#3, 0b01#2, 3#3, 5#3), (5#3, 0b10#2, 3#3, 4#3)],
        s.fsmState = x.1 → exec (.decode x.2.1) s = .next { s with fsmState := x.2.2.1 } ∧
          execAll [.decode x.2.1, .decode x.2.1] s = .next { s with fsmState := x.2.2.2 })

/-- Rule R95 (V-F6, V-H3): steady rotation from rest at 00, right after INIT or RESET chose row 0, counts first on the
6th DECODE in Buxton-Full and on the 4th in Buxton-Half. -/
def Obligations.FirstCountAfterRestAt00 : Prop :=
  ∀ s : State, s.params.Legal → s.Ready → s.fsmState = 0#3 → s.rawCounter = 0 →
    (s.mode = some .buxtonFull →
      execAll ([0b01#2, 0b11#2, 0b10#2, 0b00#2, 0b01#2].map .decode) s = .next { s with fsmState := 5#3 } ∧
      execAll ([0b01#2, 0b11#2, 0b10#2, 0b00#2, 0b01#2, 0b11#2].map .decode) s = .next { s with rawCounter := 1 } ∧
      execAll ([0b10#2, 0b11#2, 0b01#2, 0b00#2, 0b10#2].map .decode) s = .next { s with fsmState := 1#3 } ∧
      execAll ([0b10#2, 0b11#2, 0b01#2, 0b00#2, 0b10#2, 0b11#2].map .decode) s = .next { s with rawCounter := -1 }) ∧
    (s.mode = some .buxtonHalf →
      execAll ([0b01#2, 0b11#2, 0b10#2].map .decode) s = .next { s with fsmState := 1#3 } ∧
      execAll ([0b01#2, 0b11#2, 0b10#2, 0b00#2].map .decode) s = .next { s with fsmState := 3#3, rawCounter := 1 } ∧
      execAll ([0b10#2, 0b11#2, 0b01#2].map .decode) s = .next { s with fsmState := 2#3 } ∧
      execAll ([0b10#2, 0b11#2, 0b01#2, 0b00#2].map .decode) s = .next { s with fsmState := 3#3, rawCounter := -1 })

/-- Rule R94: missed edges in Standard mode. From code 00 the positive moves 00→01→11→10 count +3 when every one is
presented; seen only as `DECODE 10` they count -1, and two of them seen only as `DECODE 11` count nothing. -/
def Obligations.MissedEdgesMiscount : Prop :=
  ∀ s : State, s.Ready → s.mode = some .standard → s.prevCode = 0b00#2 → s.rawCounter.natAbs + 3 ≤ s.params.cntMax →
    execAll ([0b01#2, 0b11#2, 0b10#2].map .decode) s =
      .next { s with prevCode := 0b10#2, rawCounter := s.rawCounter + 3 } ∧
    execAll ([0b10#2].map .decode) s = .next { s with prevCode := 0b10#2, rawCounter := s.rawCounter - 1 } ∧
    execAll ([0b11#2].map .decode) s = .next { s with prevCode := 0b11#2 }

/-! The extractions -/

/-- Rule R64: XRAW. At the threshold it clears the counter and answers the quotient, below it leaves the counter and
answers 0; either is a valid response; nothing else changes. Its word is `0x80` on `c_op` only. -/
def Obligations.XrawResult : Prop :=
  SoleWord .xraw 0x80#8 ∧
  ∀ s : State, s.Ready →
    (s.cfgSpc ≤ s.rawCounter.natAbs →
      exec .xraw s = .next
        { s with rawCounter := 0, respValid := true, respData := s.rawCounter.sign * (s.rawCounter.natAbs / s.cfgSpc : Nat) }) ∧
    (s.rawCounter.natAbs < s.cfgSpc → exec .xraw s = .next { s with respValid := true, respData := 0 })

/-- Rule R65: XRAW's result rounds toward zero and has the sign of the counter; and the rule's table for `cfgSpc = 4`. -/
def Obligations.XrawRoundsTowardZero : Prop :=
  (∀ s : State, s.Ready → ∃ t, exec .xraw s = .next t ∧
    t.respData.natAbs * s.cfgSpc ≤ s.rawCounter.natAbs ∧ s.rawCounter.natAbs < (t.respData.natAbs + 1) * s.cfgSpc ∧
    0 ≤ t.respData * s.rawCounter) ∧
  (∀ s : State, s.Ready → s.cfgSpc = 4 →
    ∀ x ∈ [(7, 1, 0), (-7, -1, 0), (4, 1, 0), (-4, -1, 0), (3, 0, 3), (-3, 0, -3), ((0 : Int), (0 : Int), (0 : Int))],
      s.rawCounter = x.1 → exec .xraw s = .next { s with respValid := true, respData := x.2.1, rawCounter := x.2.2 })

/-- Rule R66: a firing XRAW clears the whole counter; the remainder is lost, so an XRAW right after it answers 0. The
same holds after a firing XNORM and XACC, which begin with `XRaw`. -/
def Obligations.FiringExtractionDropsRemainder : Prop :=
  (∀ (s : State) (i : Instr), s.Ready → i = .xraw ∨ i = .xnorm ∨ i = .xacc → s.cfgSpc ≤ s.rawCounter.natAbs →
    ∃ t, exec i s = .next t ∧ t.rawCounter = 0 ∧
      exec .xraw t = .next { t with respValid := true, respData := 0 }) ∧
  (∀ s : State, s.Ready → s.cfgSpc = 4 → s.rawCounter = 6 →
    exec .xraw s = .next { s with rawCounter := 0, respValid := true, respData := 1 })

/-- Rule R67: below the threshold every extraction answers 0 and keeps the counter, any number of times; of the other
operations only RESET clears such progress; and in a Buxton mode, where the divisor is 1, XRAW answers the whole of a
nonzero counter. -/
def Obligations.PartialProgressIsKept : Prop :=
  (∀ (ops : List Instr) (s : State), s.Ready → s.rawCounter.natAbs < s.cfgSpc →
    (∀ i ∈ ops, i = .xraw ∨ i = .xnorm ∨ i = .xacc) →
    execAll ops s =
      .next (if ops = [] then s else { s with respValid := true, respData := 0 })) ∧
  (∀ (s t : State) (i : Instr), exec i s = .next t → s.rawCounter.natAbs < s.cfgSpc → i ≠ .reset →
    (∀ c, i ≠ .decode c) → t.rawCounter = s.rawCounter) ∧
  (∀ s : State, s.Inv → s.Ready → s.mode ≠ some .standard → s.rawCounter ≠ 0 →
    exec .xraw s = .next { s with rawCounter := 0, respValid := true, respData := s.rawCounter })

/-- Rules R68, R74: the results fit. The port `r_data` shows every response exactly; XRAW's magnitude is at most
`CNT_MAX`, XNORM's at most 1; XACC's is at most `FAST_MUL * CNT_MAX` where `FAST_MUL` is the largest multiplier and at
most 4, as in the defaults, and then no free value is drawn; a divisor above `CNT_MAX` never fires. -/
def Obligations.ResultsFitTheResponse : Prop :=
  ∀ (s t : State) (i : Instr), s.Inv → exec i s = .next t →
    t.rData.toInt = t.respData ∧
    (i = .xraw → t.respData.natAbs ≤ s.params.cntMax) ∧
    (i = .xnorm → t.respData = -1 ∨ t.respData = 0 ∨ t.respData = 1) ∧
    (i = .xacc → s.params.slowMul ≤ s.params.fastMul → s.params.baseMul ≤ s.params.fastMul → s.params.fastMul ≤ 4 →
      t.respData.natAbs ≤ s.params.fastMul * s.params.cntMax ∧ t.draws = s.draws) ∧
    (i = .xraw → s.params.cntMax < s.cfgSpc → t.respData = 0 ∧ t.rawCounter = s.rawCounter)

/-- Rule R69: XNORM. It changes the counter as XRAW does and answers the sign of XRAW's result; `lastTs` is not touched.
Its word is `0xA0` on `c_op` only. -/
def Obligations.XnormResult : Prop :=
  SoleWord .xnorm 0xA0#8 ∧
  ∀ s : State, s.Ready →
    (s.cfgSpc ≤ s.rawCounter.natAbs → 0 < s.rawCounter →
      exec .xnorm s = .next { s with rawCounter := 0, respValid := true, respData := 1 }) ∧
    (s.cfgSpc ≤ s.rawCounter.natAbs → s.rawCounter < 0 →
      exec .xnorm s = .next { s with rawCounter := 0, respValid := true, respData := -1 }) ∧
    (s.rawCounter.natAbs < s.cfgSpc → exec .xnorm s = .next { s with respValid := true, respData := 0 })

/-- Rule R70: XACC at the sampled time. Below the threshold it answers 0 and touches neither the counter nor `lastTs`;
at the threshold it clears the counter, stores the time and answers XRAW's result times the multiplier of the elapsed
time, where that fits the response (rule R74; for the rest see `XaccPastTheResponse`). Its word is `0xC0` on `c_op`
only. -/
def Obligations.XaccResult : Prop :=
  SoleWord .xacc 0xC0#8 ∧
  ∀ (s : State) (t e m : Nat) (r : Int), s.Ready → t = s.pins.nowMs % 2 ^ s.params.timeW →
    (e : Int) = ((t : Int) - s.lastTs) % (2 ^ s.params.timeW : Int) →
    r = s.rawCounter.sign * (s.rawCounter.natAbs / s.cfgSpc : Nat) →
    m = (if e < s.params.fastMs then s.params.fastMul else if e < s.params.slowMs then s.params.slowMul
      else s.params.baseMul) →
    (s.rawCounter.natAbs < s.cfgSpc → exec .xacc s = .next { s with respValid := true, respData := 0 }) ∧
    (s.cfgSpc ≤ s.rawCounter.natAbs → fitsResp s.params (r * m) →
      exec .xacc s = .next { s with rawCounter := 0, lastTs := t, respValid := true, respData := r * m })

/-- Rules R70, R7: an XACC whose product does not fit the response, which takes a multiplier above 4, still clears the
counter, stores the time and answers a valid response; its value, some value of `RESP_W` bits, is free. That it is free
is the model's choice: no rule states it (log 14). -/
def Obligations.XaccPastTheResponse : Prop :=
  ∀ (s : State) (e : Nat), s.Ready → s.cfgSpc ≤ s.rawCounter.natAbs →
    (e : Int) = ((s.pins.nowMs % 2 ^ s.params.timeW : Nat) - s.lastTs : Int) % (2 ^ s.params.timeW : Int) →
    ¬ fitsResp s.params (tdiv s.rawCounter s.cfgSpc * (accelMul s.params e : Int)) →
    ∃ d, fitsResp s.params d ∧
      exec .xacc s = .next
        { s with
          rawCounter := 0, lastTs := s.pins.nowMs % 2 ^ s.params.timeW, respValid := true, respData := d
          draws := s.draws + 1 }

/-- Rule R71: the elapsed time is right across one wrap of the clock and ambiguous beyond it: `k` ms after `lastTs`,
whatever `k` is, XACC uses the multiplier of `k mod 2^TIME_W`. The premise on the product is rule R74's: it fits the
response. -/
def Obligations.ElapsedTimeIsModular : Prop :=
  ∀ (s : State) (k : Nat) (v : Int), s.Inv → s.Ready → s.cfgSpc ≤ s.rawCounter.natAbs → s.pins.nowMs = s.lastTs + k →
    v = tdiv s.rawCounter s.cfgSpc * (accelMul s.params (k % 2 ^ s.params.timeW) : Int) → fitsResp s.params v →
    ∃ t, exec .xacc s = .next t ∧ t.respData = v ∧ t.lastTs = (s.lastTs + k) % 2 ^ s.params.timeW

/-- Rule R72: the thresholds of the defaults are strict. -/
def Obligations.DefaultThresholds : Prop :=
  ∀ e : Nat, (e ≤ 24 → accelMul Params.default e = 4) ∧ (25 ≤ e → e ≤ 59 → accelMul Params.default e = 2) ∧
    (60 ≤ e → accelMul Params.default e = 1)

/-- Rules R18, R73: `lastTs` changes only in an XACC whose raw result is nonzero, and then it becomes the sampled time.
An XACC that answers 0 and every other operation leave it; so does every cycle without XACC. -/
def Obligations.TimestampOnlyOnNonzeroXacc : Prop :=
  (∀ s t : State, exec .xacc s = .next t →
    (tdiv s.rawCounter s.cfgSpc ≠ 0 → t.lastTs = s.pins.nowMs % 2 ^ s.params.timeW) ∧
    (tdiv s.rawCounter s.cfgSpc = 0 → t.lastTs = s.lastTs ∧ t.rawCounter = s.rawCounter ∧ t.respData = 0)) ∧
  (∀ (s t : State) (i : Instr), i ≠ .xacc → exec i s = .next t → t.lastTs = s.lastTs) ∧
  (∀ s t : State, s.pins.rst = false → consumerInstr s ≠ .xacc → step s = .next t → t.lastTs = s.lastTs)

/-! Lifecycle -/

/-- Rule R75: INIT stores the sample in Standard mode and selects row 0 in a Buxton mode, whatever the sample; it
returns no result; nothing else changes; a repeat changes nothing. Its words are `0x40 + c` on `c_op` only. -/
def Obligations.InitResult : Prop :=
  (∀ c : SignalCode, SoleWord (.init c) (0b010000#6 ++ c)) ∧
  ∀ (s : State) (c : SignalCode), s.Ready →
    (s.mode = some .standard →
      exec (.init c) s = .next { s with prevCode := c, respValid := false } ∧
      execAll [.init c, .init c] s = exec (.init c) s) ∧
    (s.mode ≠ some .standard →
      exec (.init c) s = .next { s with fsmState := 0#3, respValid := false } ∧
      execAll [.init c, .init c] s = exec (.init c) s)

/-- Rule R76: RESET clears the counter, and in a Buxton mode selects row 0; it returns no result; nothing else changes.
Its word is `0x60` on `c_op` only. -/
def Obligations.ResetResult : Prop :=
  SoleWord .reset 0x60#8 ∧
  ∀ s : State, s.Ready →
    (s.mode = some .standard → exec .reset s = .next { s with rawCounter := 0, respValid := false }) ∧
    (s.mode ≠ some .standard →
      exec .reset s = .next { s with rawCounter := 0, fsmState := 0#3, respValid := false })

/-- Rule R78: NOP changes nothing, but that on `c_op` the response is no longer valid; a cycle of NOPs changes nothing
else. Its word is `0x00` on either port, and every illegal word is performed as NOP on its port (`advance` is the
model's input feed, log 3). -/
def Obligations.NopResult : Prop :=
  SoleWord (.nop .producer) 0x00#8 ∧ SoleWord (.nop .consumer) 0x00#8 ∧
  (∀ (port : Port) (w : OpWord) (e : Illegal), portDecode port w = .error e → portInstr port w = .nop port) ∧
  ∀ s : State, s.Ready →
    exec (.nop .producer) s = .next s ∧ exec (.nop .consumer) s = .next { s with respValid := false } ∧
    (s.pins.rst = false → s.pins.pOp = 0x00#8 → s.pins.cOp = 0x00#8 →
      step s = .next { s with respValid := false }.advance)

/-- Rules R92, R75: right after construction, INIT of the true code gives a Standard block that code and a zero
counter, and changes nothing in a Buxton block. -/
def Obligations.BootSequence : Prop :=
  ∀ (s t : State) (c : SignalCode), s.pins.rst = true → step s = .next t → t.Ready →
    (t.mode = some .standard → exec (.init c) t = .next { t with prevCode := c }) ∧
    (t.mode ≠ some .standard → exec (.init c) t = .next t)

/-- Rule R77: after RESET the block answers as a freshly constructed and initialised one does. (i) In a Buxton mode
every sequence without XACC; (ii) in Standard mode too, when `prevCode` is the code INIT samples; (iii) with XACC, when
`lastTs` is what the fresh block has. The operations run one after another at one clock value; for cycles, whose XACCs
read different times, see `ResetAgreesWithFreshBlock`. -/
def Obligations.ResetMatchesFreshBlock : Prop :=
  ∀ (s f r g : State) (c : SignalCode) (ops : List Instr), s.Ready →
    f = { s with prevCode := 0b00#2, fsmState := 0#3, rawCounter := 0, lastTs := 0, respValid := false, respData := 0 } →
    exec .reset s = .next r → exec (.init c) f = .next g →
    (s.mode = some .standard → s.prevCode = c) →
    ((∀ i ∈ ops, i ≠ .xacc) ∨ s.lastTs = 0) → answers ops r = answers ops g

/-- Rule R77 (W8 (c), (d)): the conditions (ii) and (iii) are needed. With `prevCode` 11 and the lines at 00, the same
DECODE counts -1 after RESET alone and +1 after INIT of the true code. One cycle and an XACC at 1010 ms after RESET
answer 4 where `lastTs` is 1000 and 1 where it is 0, as in a fresh block. -/
def Obligations.ResetConditionsAreNeeded : Prop :=
  (∀ s : State, s.params.Legal → s.Ready → s.mode = some .standard → s.cfgSpc = 1 → s.prevCode = 0b11#2 →
    answers [.reset, .decode 0b01#2, .xraw] s = [-1] ∧
    answers [.reset, .init 0b00#2, .decode 0b01#2, .xraw] s = [1]) ∧
  (∀ s : State, s.Ready → s.mode = some .buxtonFull → s.cfgSpc = 1 → s.params = Params.default →
    s.pins.nowMs = 1010 →
    (s.lastTs = 1000 → answers (.reset :: cwCodes.map .decode ++ [.xacc]) s = [4]) ∧
    (s.lastTs = 0 → answers (.reset :: cwCodes.map .decode ++ [.xacc]) s = [1]))

/-- Rule R77, cycle by cycle: after RESET the block agrees with a freshly constructed and initialised one, (i) in a
Buxton mode, (ii) in Standard when `prevCode` is the code INIT samples; and two blocks that agree still do after any
step, whatever the words and times on the ports, (iii) with XACC when `lastTs` agrees too, which every step keeps. -/
def Obligations.ResetAgreesWithFreshBlock : Prop :=
  (∀ (s f r g : State) (c : SignalCode), s.Ready →
    f = { s with prevCode := 0b00#2, fsmState := 0#3, rawCounter := 0, lastTs := 0, respValid := false, respData := 0 } →
    exec .reset s = .next r → exec (.init c) f = .next g → (s.mode = some .standard → s.prevCode = c) →
    Agree r g ∧ (s.lastTs = 0 → r.lastTs = g.lastTs)) ∧
  (∀ s t u : State, Agree s t → s.lastTs = t.lastTs ∨ consumerInstr s ≠ .xacc → step s = .next u →
    ∃ v, step t = .next v ∧ Agree u v ∧ (s.lastTs = t.lastTs → u.lastTs = v.lastTs))

/-! The response, the two agents -/

/-- Rule R49: after a cycle the response is valid exactly if the consumer's operation was an extraction; else the old
data is held; an extraction's data is the result of that operation at the state it ran on. -/
def Obligations.ResponseFollowsTheConsumer : Prop :=
  ∀ s t : State, s.pins.rst = false → step s = .next t →
    t.respValid = (consumerInstr s).extracts ∧
    ((consumerInstr s).extracts = false → t.respData = s.respData) ∧
    (s.params.order = .consumerFirst →
      ∃ u, exec (consumerInstr s) s = .next u ∧ t.respData = u.respData) ∧
    (s.params.order = .producerFirst →
      ∃ v u, exec (producerInstr s) s = .next v ∧ exec (consumerInstr s) v = .next u ∧ t.respData = u.respData)

/-- Rules R34, R100: with the consumer first, the response and `lastTs` after a cycle do not depend on the word on
`p_op`. -/
def Obligations.ResponseIgnoresSameCycleDecode : Prop :=
  ∀ (s t u : State) (w : OpWord), s.params.order = .consumerFirst → s.pins.rst = false → step s = .next t →
    step { s with pins := { s.pins with pOp := w } } = .next u →
    t.respValid = u.respValid ∧ t.respData = u.respData ∧ t.lastTs = u.lastTs

/-- Rules R34, R35 (b), R100 (V-Y1): an extraction and a DECODE in one cycle of a Standard block. With the consumer
first the micro-step lands on what the extraction left; with the producer first the extraction sees it. -/
def Obligations.SameCycleExtractionAndDecode : Prop :=
  ∀ (s : State) (i : Instr) (c : SignalCode) (n : Int), s.params.Legal → s.Ready → s.mode = some .standard →
    s.pins.rst = false → i.extracts = true → s.pins.cOp = encode i → s.pins.pOp = encode (.decode c) →
    n = s.rawCounter + stdDelta s.prevCode c → n.natAbs ≤ s.params.cntMax →
    (s.params.order = .consumerFirst → s.cfgSpc ≤ s.rawCounter.natAbs →
      ∃ t, step s = .next t ∧ t.prevCode = c ∧ t.rawCounter = stdDelta s.prevCode c ∧ t.respValid = true) ∧
    (s.params.order = .consumerFirst → s.rawCounter.natAbs < s.cfgSpc →
      ∃ t, step s = .next t ∧ t.prevCode = c ∧ t.rawCounter = n ∧ t.respValid = true ∧ t.respData = 0) ∧
    (s.params.order = .producerFirst → s.cfgSpc ≤ n.natAbs →
      ∃ t, step s = .next t ∧ t.prevCode = c ∧ t.rawCounter = 0 ∧ t.respValid = true ∧
        (i = .xraw → t.respData = tdiv n s.cfgSpc)) ∧
    (s.params.order = .producerFirst → n.natAbs < s.cfgSpc →
      ∃ t, step s = .next t ∧ t.prevCode = c ∧ t.rawCounter = n ∧ t.respValid = true ∧ t.respData = 0)

/-- Rule R20: no extraction reads `prevCode` or `fsmState`. -/
def Obligations.ExtractionsIgnoreDecoderState : Prop :=
  ∀ (s t : State) (i : Instr) (c : SignalCode) (r : FsmRow), i.extracts = true → exec i s = .next t →
    exec i { s with prevCode := c, fsmState := r } = .next { t with prevCode := c, fsmState := r }

/-- Rules R12 to R20: which operations write which register. -/
def Obligations.RegisterWriters : Prop :=
  ∀ (s t : State) (i : Instr), exec i s = .next t →
    t.cfgMode = s.cfgMode ∧ t.cfgSpc = s.cfgSpc ∧ t.params = s.params ∧ t.pins = s.pins ∧ t.schedule = s.schedule ∧
    (t.prevCode ≠ s.prevCode → s.mode = some .standard ∧ ∃ c, i = .decode c ∨ i = .init c) ∧
    (t.fsmState ≠ s.fsmState → s.mode ≠ some .standard ∧ (i = .reset ∨ ∃ c, i = .decode c ∨ i = .init c)) ∧
    (t.rawCounter ≠ s.rawCounter →
      i = .reset ∨ i = .xraw ∨ i = .xnorm ∨ i = .xacc ∨ ∃ c, i = .decode c) ∧
    (t.lastTs ≠ s.lastTs ∨ t.draws ≠ s.draws → i = .xacc) ∧
    (t.respData ≠ s.respData → i = .xraw ∨ i = .xnorm ∨ i = .xacc) ∧
    (i.port = .producer → t.respValid = s.respValid) ∧ (i.port = .consumer → t.respValid = i.extracts)

/-- Rule R35 (a): no update is lost. After any number of edges the counter is `A - Z`, both sums since the last
construction or, from a state where it held, since then. -/
def Obligations.NoUpdateIsLost : Prop :=
  ∀ (k : Nat) (s t : State) (l : Ledger), run k s = .next t → s.rawCounter = l.a - l.z →
    t.rawCounter = (Ledger.run k l s).a - (Ledger.run k l s).z

/-! Invariants and totality -/

/-- Rules R12, R21: the reset state satisfies the invariant and may run. -/
def Obligations.InvariantHoldsAtReset : Prop := State.reset.Inv ∧ State.reset.Ready

/-- Rule R21: every step keeps the invariant, constructions included. -/
def Obligations.StepKeepsInvariant : Prop := ∀ s t : State, s.Inv → step s = .next t → t.Inv

/-- Rules R13, R14: a cycle runs only in an admitted configuration, a mode and a nonzero divisor, and stays in it. The
step forces it by refusing every other configuration at an edge with `rst = 0`, a divisor of 0 in every mode, which is
the model's reading of rule R91 (log 4). -/
def Obligations.BadConfigurationNeverRuns : Prop :=
  ∀ s t : State, step s = .next t → s.pins.rst = false → s.Ready ∧ t.Ready

/-- Rules R79, R101: with the saturating policy an admitted block never stops: every number of edges, whatever the port
words and clock values, ends in a next state, the invariant kept. -/
def Obligations.AdmittedRunsNeverStop : Prop :=
  ∀ (k : Nat) (s : State), s.Inv → s.Ready → s.params.overflow = .saturate →
    (∀ x ∈ s.pins :: s.schedule, x.rst = true → x.configOk s.params = true) →
    ∃ t, run k s = .next t ∧ t.Inv ∧ t.Ready
end

