-- ==== Sys2Proof/Laws/State.lean ====
section
/-! SUPPORT. One lemma per field per update of the state, each true by unfolding, so that no proof unfolds a record update. -/

namespace Sys2Proof.Machine

/-! `rawCounter <- v` -/

@[simp] theorem State.setCounter_params (s : State) (v : Int) : (s.setCounter v).params = s.params := rfl
@[simp] theorem State.setCounter_cfgMode (s : State) (v : Int) : (s.setCounter v).cfgMode = s.cfgMode := rfl
@[simp] theorem State.setCounter_cfgSpc (s : State) (v : Int) : (s.setCounter v).cfgSpc = s.cfgSpc := rfl
@[simp] theorem State.setCounter_prevCode (s : State) (v : Int) : (s.setCounter v).prevCode = s.prevCode := rfl
@[simp] theorem State.setCounter_fsmState (s : State) (v : Int) : (s.setCounter v).fsmState = s.fsmState := rfl
@[simp] theorem State.setCounter_rawCounter (s : State) (v : Int) : (s.setCounter v).rawCounter = v := rfl
@[simp] theorem State.setCounter_lastTs (s : State) (v : Int) : (s.setCounter v).lastTs = s.lastTs := rfl
@[simp] theorem State.setCounter_respValid (s : State) (v : Int) : (s.setCounter v).respValid = s.respValid := rfl
@[simp] theorem State.setCounter_respData (s : State) (v : Int) : (s.setCounter v).respData = s.respData := rfl
@[simp] theorem State.setCounter_draws (s : State) (v : Int) : (s.setCounter v).draws = s.draws := rfl
@[simp] theorem State.setCounter_pins (s : State) (v : Int) : (s.setCounter v).pins = s.pins := rfl
@[simp] theorem State.setCounter_schedule (s : State) (v : Int) : (s.setCounter v).schedule = s.schedule := rfl

/-! `prevCode <- c` -/

@[simp] theorem State.setPrevCode_params (s : State) (c : SignalCode) : (s.setPrevCode c).params = s.params := rfl
@[simp] theorem State.setPrevCode_cfgMode (s : State) (c : SignalCode) : (s.setPrevCode c).cfgMode = s.cfgMode := rfl
@[simp] theorem State.setPrevCode_cfgSpc (s : State) (c : SignalCode) : (s.setPrevCode c).cfgSpc = s.cfgSpc := rfl
@[simp] theorem State.setPrevCode_prevCode (s : State) (c : SignalCode) : (s.setPrevCode c).prevCode = c := rfl
@[simp] theorem State.setPrevCode_fsmState (s : State) (c : SignalCode) : (s.setPrevCode c).fsmState = s.fsmState := rfl
@[simp] theorem State.setPrevCode_rawCounter (s : State) (c : SignalCode) : (s.setPrevCode c).rawCounter = s.rawCounter := rfl
@[simp] theorem State.setPrevCode_lastTs (s : State) (c : SignalCode) : (s.setPrevCode c).lastTs = s.lastTs := rfl
@[simp] theorem State.setPrevCode_respValid (s : State) (c : SignalCode) : (s.setPrevCode c).respValid = s.respValid := rfl
@[simp] theorem State.setPrevCode_respData (s : State) (c : SignalCode) : (s.setPrevCode c).respData = s.respData := rfl
@[simp] theorem State.setPrevCode_draws (s : State) (c : SignalCode) : (s.setPrevCode c).draws = s.draws := rfl
@[simp] theorem State.setPrevCode_pins (s : State) (c : SignalCode) : (s.setPrevCode c).pins = s.pins := rfl
@[simp] theorem State.setPrevCode_schedule (s : State) (c : SignalCode) : (s.setPrevCode c).schedule = s.schedule := rfl

/-! `fsmState <- r` -/

@[simp] theorem State.setFsmState_params (s : State) (r : FsmRow) : (s.setFsmState r).params = s.params := rfl
@[simp] theorem State.setFsmState_cfgMode (s : State) (r : FsmRow) : (s.setFsmState r).cfgMode = s.cfgMode := rfl
@[simp] theorem State.setFsmState_cfgSpc (s : State) (r : FsmRow) : (s.setFsmState r).cfgSpc = s.cfgSpc := rfl
@[simp] theorem State.setFsmState_prevCode (s : State) (r : FsmRow) : (s.setFsmState r).prevCode = s.prevCode := rfl
@[simp] theorem State.setFsmState_fsmState (s : State) (r : FsmRow) : (s.setFsmState r).fsmState = r := rfl
@[simp] theorem State.setFsmState_rawCounter (s : State) (r : FsmRow) : (s.setFsmState r).rawCounter = s.rawCounter := rfl
@[simp] theorem State.setFsmState_lastTs (s : State) (r : FsmRow) : (s.setFsmState r).lastTs = s.lastTs := rfl
@[simp] theorem State.setFsmState_respValid (s : State) (r : FsmRow) : (s.setFsmState r).respValid = s.respValid := rfl
@[simp] theorem State.setFsmState_respData (s : State) (r : FsmRow) : (s.setFsmState r).respData = s.respData := rfl
@[simp] theorem State.setFsmState_draws (s : State) (r : FsmRow) : (s.setFsmState r).draws = s.draws := rfl
@[simp] theorem State.setFsmState_pins (s : State) (r : FsmRow) : (s.setFsmState r).pins = s.pins := rfl
@[simp] theorem State.setFsmState_schedule (s : State) (r : FsmRow) : (s.setFsmState r).schedule = s.schedule := rfl

/-! `lastTs <- t` -/

@[simp] theorem State.setLastTs_params (s : State) (t : Nat) : (s.setLastTs t).params = s.params := rfl
@[simp] theorem State.setLastTs_cfgMode (s : State) (t : Nat) : (s.setLastTs t).cfgMode = s.cfgMode := rfl
@[simp] theorem State.setLastTs_cfgSpc (s : State) (t : Nat) : (s.setLastTs t).cfgSpc = s.cfgSpc := rfl
@[simp] theorem State.setLastTs_prevCode (s : State) (t : Nat) : (s.setLastTs t).prevCode = s.prevCode := rfl
@[simp] theorem State.setLastTs_fsmState (s : State) (t : Nat) : (s.setLastTs t).fsmState = s.fsmState := rfl
@[simp] theorem State.setLastTs_rawCounter (s : State) (t : Nat) : (s.setLastTs t).rawCounter = s.rawCounter := rfl
@[simp] theorem State.setLastTs_lastTs (s : State) (t : Nat) : (s.setLastTs t).lastTs = t := rfl
@[simp] theorem State.setLastTs_respValid (s : State) (t : Nat) : (s.setLastTs t).respValid = s.respValid := rfl
@[simp] theorem State.setLastTs_respData (s : State) (t : Nat) : (s.setLastTs t).respData = s.respData := rfl
@[simp] theorem State.setLastTs_draws (s : State) (t : Nat) : (s.setLastTs t).draws = s.draws := rfl
@[simp] theorem State.setLastTs_pins (s : State) (t : Nat) : (s.setLastTs t).pins = s.pins := rfl
@[simp] theorem State.setLastTs_schedule (s : State) (t : Nat) : (s.setLastTs t).schedule = s.schedule := rfl

/-! the response registers -/

@[simp] theorem State.setResponse_params (s : State) (v : Bool) (d : Int) : (s.setResponse v d).params = s.params := rfl
@[simp] theorem State.setResponse_cfgMode (s : State) (v : Bool) (d : Int) : (s.setResponse v d).cfgMode = s.cfgMode := rfl
@[simp] theorem State.setResponse_cfgSpc (s : State) (v : Bool) (d : Int) : (s.setResponse v d).cfgSpc = s.cfgSpc := rfl
@[simp] theorem State.setResponse_prevCode (s : State) (v : Bool) (d : Int) : (s.setResponse v d).prevCode = s.prevCode := rfl
@[simp] theorem State.setResponse_fsmState (s : State) (v : Bool) (d : Int) : (s.setResponse v d).fsmState = s.fsmState := rfl
@[simp] theorem State.setResponse_rawCounter (s : State) (v : Bool) (d : Int) : (s.setResponse v d).rawCounter = s.rawCounter := rfl
@[simp] theorem State.setResponse_lastTs (s : State) (v : Bool) (d : Int) : (s.setResponse v d).lastTs = s.lastTs := rfl
@[simp] theorem State.setResponse_respValid (s : State) (v : Bool) (d : Int) : (s.setResponse v d).respValid = v := rfl
@[simp] theorem State.setResponse_respData (s : State) (v : Bool) (d : Int) : (s.setResponse v d).respData = d := rfl
@[simp] theorem State.setResponse_draws (s : State) (v : Bool) (d : Int) : (s.setResponse v d).draws = s.draws := rfl
@[simp] theorem State.setResponse_pins (s : State) (v : Bool) (d : Int) : (s.setResponse v d).pins = s.pins := rfl
@[simp] theorem State.setResponse_schedule (s : State) (v : Bool) (d : Int) : (s.setResponse v d).schedule = s.schedule := rfl

/-! drawing a free value -/

@[simp] theorem State.draw_params (s : State) : s.draw.params = s.params := rfl
@[simp] theorem State.draw_cfgMode (s : State) : s.draw.cfgMode = s.cfgMode := rfl
@[simp] theorem State.draw_cfgSpc (s : State) : s.draw.cfgSpc = s.cfgSpc := rfl
@[simp] theorem State.draw_prevCode (s : State) : s.draw.prevCode = s.prevCode := rfl
@[simp] theorem State.draw_fsmState (s : State) : s.draw.fsmState = s.fsmState := rfl
@[simp] theorem State.draw_rawCounter (s : State) : s.draw.rawCounter = s.rawCounter := rfl
@[simp] theorem State.draw_lastTs (s : State) : s.draw.lastTs = s.lastTs := rfl
@[simp] theorem State.draw_respValid (s : State) : s.draw.respValid = s.respValid := rfl
@[simp] theorem State.draw_respData (s : State) : s.draw.respData = s.respData := rfl
@[simp] theorem State.draw_draws (s : State) : s.draw.draws = s.draws + 1 := rfl
@[simp] theorem State.draw_pins (s : State) : s.draw.pins = s.pins := rfl
@[simp] theorem State.draw_schedule (s : State) : s.draw.schedule = s.schedule := rfl
@[simp] theorem State.draw_mode (s : State) : s.draw.mode = s.mode := rfl

/-! the input ports' next values -/

@[simp] theorem State.advance_params (s : State) : (s.advance).params = s.params := rfl
@[simp] theorem State.advance_cfgMode (s : State) : (s.advance).cfgMode = s.cfgMode := rfl
@[simp] theorem State.advance_cfgSpc (s : State) : (s.advance).cfgSpc = s.cfgSpc := rfl
@[simp] theorem State.advance_prevCode (s : State) : (s.advance).prevCode = s.prevCode := rfl
@[simp] theorem State.advance_fsmState (s : State) : (s.advance).fsmState = s.fsmState := rfl
@[simp] theorem State.advance_rawCounter (s : State) : (s.advance).rawCounter = s.rawCounter := rfl
@[simp] theorem State.advance_lastTs (s : State) : (s.advance).lastTs = s.lastTs := rfl
@[simp] theorem State.advance_respValid (s : State) : (s.advance).respValid = s.respValid := rfl
@[simp] theorem State.advance_respData (s : State) : (s.advance).respData = s.respData := rfl
@[simp] theorem State.advance_draws (s : State) : (s.advance).draws = s.draws := rfl
@[simp] theorem State.advance_pins (s : State) : (s.advance).pins = s.schedule.headD Pins.idle := rfl
@[simp] theorem State.advance_schedule (s : State) : (s.advance).schedule = s.schedule.tail := rfl

/-! construction -/

@[simp] theorem construct_params (s : State) : (construct s).params = s.params := rfl
@[simp] theorem construct_cfgMode (s : State) : (construct s).cfgMode = s.pins.cfgMode := rfl
@[simp] theorem construct_cfgSpc (s : State) : (construct s).cfgSpc = (if s.pins.cfgMode = Mode.standard.code then spcOf s else 1) := rfl
@[simp] theorem construct_prevCode (s : State) : (construct s).prevCode = 0b00#2 := rfl
@[simp] theorem construct_fsmState (s : State) : (construct s).fsmState = 0#3 := rfl
@[simp] theorem construct_rawCounter (s : State) : (construct s).rawCounter = 0 := rfl
@[simp] theorem construct_lastTs (s : State) : (construct s).lastTs = 0 := rfl
@[simp] theorem construct_respValid (s : State) : (construct s).respValid = false := rfl
@[simp] theorem construct_respData (s : State) : (construct s).respData = 0 := rfl
@[simp] theorem construct_draws (s : State) : (construct s).draws = s.draws := rfl
@[simp] theorem construct_pins (s : State) : (construct s).pins = s.pins := rfl
@[simp] theorem construct_schedule (s : State) : (construct s).schedule = s.schedule := rfl

/-! `UpdateResp` -/

@[simp] theorem updateResp_none (s : State) : updateResp none s = s.setResponse false s.respData := rfl
@[simp] theorem updateResp_some (s : State) (v : Int) : updateResp (some v) s = s.setResponse true v := rfl

/-! The mode is a view of `cfgMode` -/

@[simp] theorem State.setCounter_mode (s : State) (v : Int) : (s.setCounter v).mode = s.mode := rfl
@[simp] theorem State.setPrevCode_mode (s : State) (c : SignalCode) : (s.setPrevCode c).mode = s.mode := rfl
@[simp] theorem State.setFsmState_mode (s : State) (r : FsmRow) : (s.setFsmState r).mode = s.mode := rfl
@[simp] theorem State.setLastTs_mode (s : State) (t : Nat) : (s.setLastTs t).mode = s.mode := rfl
@[simp] theorem State.setResponse_mode (s : State) (v : Bool) (d : Int) : (s.setResponse v d).mode = s.mode := rfl
@[simp] theorem State.advance_mode (s : State) : (s.advance).mode = s.mode := rfl

end Sys2Proof.Machine
end

