-- ==== Sys2Proof/Laws/Ops.lean ====
section
/-! SUPPORT. For each shared operation, what it can do, said once: running one operation after another, admission, the
saturating add, the truncating division, the ROM reads, the decoding engines and the extraction. -/

namespace Sys2Proof.Machine

/-! Running one operation after another -/

@[simp] theorem andThen_next (s : State) (f : State → Result) : andThen (.next s) f = f s := rfl
@[simp] theorem andThen_fault (e : Fault) (f : State → Result) : andThen (.fault e) f = .fault e := rfl
@[simp] theorem andThen_refused (e : Refusal) (f : State → Result) : andThen (.refused e) f = .refused e := rfl

theorem andThen_eq_next {r : Result} {f : State → Result} {t : State} :
    andThen r f = .next t ↔ ∃ u, r = .next u ∧ f u = .next t := by
  cases r <;> simp

theorem andThen_eq_fault {r : Result} {f : State → Result} {e : Fault} :
    andThen r f = .fault e ↔ r = .fault e ∨ ∃ u, r = .next u ∧ f u = .fault e := by
  cases r <;> simp

theorem andThen_assoc (r : Result) (f g : State → Result) :
    andThen (andThen r f) g = andThen r fun s => andThen (f s) g := by
  cases r <;> rfl

/-! Admission -/

theorem admitted_of_ready {s : State} (h : s.Ready) (r : Result) : admitted s r = r := if_neg h

theorem admitted_of_bad {s : State} (h : s.BadConfig) (r : Result) : admitted s r = .refused .badConfiguration :=
  if_pos h

theorem admitted_cases (s : State) :
    s.Ready ∧ (∀ r, admitted s r = r) ∨
    (∀ r, admitted s r = .refused .badConfiguration) ∧ ¬ s.Ready := by
  by_cases hb : s.BadConfig
  · exact .inr ⟨admitted_of_bad hb, not_not_intro hb⟩
  · exact .inl ⟨hb, admitted_of_ready hb⟩

theorem admitted_eq_next {s t : State} {r : Result} : admitted s r = .next t ↔ s.Ready ∧ r = .next t := by
  rcases admitted_cases s with ⟨h, he⟩ | ⟨he, h⟩ <;> rw [he]
  · exact (and_iff_right h).symm
  · exact ⟨nofun, fun h' => absurd h'.1 h⟩

theorem admitted_eq_fault {s : State} {r : Result} {e : Fault} : admitted s r = .fault e ↔ s.Ready ∧ r = .fault e := by
  rcases admitted_cases s with ⟨h, he⟩ | ⟨he, h⟩ <;> rw [he]
  · exact (and_iff_right h).symm
  · exact ⟨nofun, fun h' => absurd h'.1 h⟩

/-! The counter -/

/-- `addCount` adds, or drops the micro-step, or faults. -/
theorem addCount_cases (d : Int) (s : State) :
    ((s.rawCounter + d).natAbs ≤ s.params.cntMax ∧ addCount d s = .next (s.setCounter (s.rawCounter + d))) ∨
    (s.params.cntMax < (s.rawCounter + d).natAbs ∧ s.params.overflow = .saturate ∧ addCount d s = .next s) ∨
    (s.params.cntMax < (s.rawCounter + d).natAbs ∧ s.params.overflow = .fault ∧
      addCount d s = .fault .counterOverflow) := by
  unfold addCount satAdd
  split_ifs with h
  · exact .inl ⟨by omega, rfl⟩
  · have : s.params.cntMax < (s.rawCounter + d).natAbs := by omega
    cases ho : s.params.overflow
    · exact .inr (.inl ⟨this, rfl, rfl⟩)
    · exact .inr (.inr ⟨this, rfl, rfl⟩)

/-! Division -/

theorem tdiv_natAbs_le (a : Int) (b : Nat) : (tdiv a b).natAbs ≤ a.natAbs := by
  unfold tdiv
  rw [Int.natAbs_mul, Int.natAbs_natCast]
  calc a.sign.natAbs * (a.natAbs / b) ≤ 1 * (a.natAbs / b) := Nat.mul_le_mul_right _ (by
        rcases Int.sign_trichotomy a with h | h | h <;> simp [h])
    _ ≤ a.natAbs := by rw [Nat.one_mul]; exact Nat.div_le_self _ _

/-- The quotient is 0 exactly below the threshold. -/
theorem tdiv_eq_zero_iff {a : Int} {b : Nat} (hb : b ≠ 0) : tdiv a b = 0 ↔ a.natAbs < b := by
  unfold tdiv
  have hb' : 0 < b := Nat.pos_of_ne_zero hb
  rw [mul_eq_zero, Int.sign_eq_zero_iff_zero, Int.natCast_eq_zero, Nat.div_eq_zero_iff]
  omega

/-- The quotient has the sign of the dividend at or above the threshold. -/
theorem tdiv_sign {a : Int} {b : Nat} (hb : b ≠ 0) (h : b ≤ a.natAbs) : (tdiv a b).sign = a.sign := by
  have : 0 < a.natAbs / b := Nat.div_pos h (Nat.pos_of_ne_zero hb)
  unfold tdiv
  rw [Int.sign_mul, Int.sign_sign, Int.sign_natCast_of_ne_zero (by omega), mul_one]

/-! The ROMs -/

theorem stdDelta_natAbs_le (a b : SignalCode) : (stdDelta a b).natAbs ≤ 1 := by revert a b; decide

theorem romDelta_natAbs_le (w : RomWord) : (romDelta w).natAbs ≤ 1 := by
  unfold romDelta
  split_ifs <;> decide

theorem romCell_full_of_lt : ∀ (r : FsmRow) (c : SignalCode), r.toNat < 7 →
    ∃ w, romCell fullRomTable r c = some w ∧ (romNext w).toNat < 7 := by decide

theorem romCell_half_of_lt : ∀ (r : FsmRow) (c : SignalCode), r.toNat < 6 →
    ∃ w, romCell halfRomTable r c = some w ∧ (romNext w).toNat < 6 := by decide

/-! The engines -/

theorem stdDecode_next {c : SignalCode} {s t : State} (h : stdDecode c s = .next t) :
    c = s.prevCode ∧ t = s ∨
    c ≠ s.prevCode ∧ (s.rawCounter + stdDelta s.prevCode c).natAbs ≤ s.params.cntMax ∧
      t = (s.setCounter (s.rawCounter + stdDelta s.prevCode c)).setPrevCode c ∨
    c ≠ s.prevCode ∧ s.params.cntMax < (s.rawCounter + stdDelta s.prevCode c).natAbs ∧ t = s.setPrevCode c := by
  unfold stdDecode at h
  split_ifs at h with hc
  · exact .inl ⟨hc, by simpa using h.symm⟩
  · rcases addCount_cases (stdDelta s.prevCode c) s with ⟨hr, he⟩ | ⟨hr, -, he⟩ | ⟨hr, -, he⟩ <;>
      simp only [he, andThen_next, andThen_fault, Host.Outcome.next.injEq, reduceCtorEq] at h
    · exact .inr (.inl ⟨hc, hr, h.symm⟩)
    · exact .inr (.inr ⟨hc, hr, h.symm⟩)

theorem bxDecode_next {table : List (List RomWord)} {c : SignalCode} {s t : State}
    (h : bxDecode table c s = .next t) :
    ∃ w, romCell table s.fsmState c = some w ∧
      ((romDelta w = 0 ∧ t = s.setFsmState (romNext w)) ∨
       (romDelta w ≠ 0 ∧ (s.rawCounter + romDelta w).natAbs ≤ s.params.cntMax ∧
         t = (s.setFsmState (romNext w)).setCounter (s.rawCounter + romDelta w)) ∨
       (romDelta w ≠ 0 ∧ s.params.cntMax < (s.rawCounter + romDelta w).natAbs ∧
         t = s.setFsmState (romNext w))) := by
  unfold bxDecode at h
  split at h
  · cases h
  · next w hw =>
    refine ⟨w, hw, ?_⟩
    split_ifs at h with hd
    · exact .inl ⟨hd, by simpa using h.symm⟩
    · rcases addCount_cases (romDelta w) (s.setFsmState (romNext w)) with ⟨hr, he⟩ | ⟨hr, -, he⟩ | ⟨hr, -, he⟩ <;>
        simp only [he, Host.Outcome.next.injEq, reduceCtorEq, State.setFsmState_rawCounter,
          State.setFsmState_params] at h hr
      · exact .inr (.inl ⟨hd, hr, h.symm⟩)
      · exact .inr (.inr ⟨hd, hr, h.symm⟩)

/-- DECODE runs one of the engines, on a state the model admits. -/
theorem execDecode_next {c : SignalCode} {s t : State} (h : exec (.decode c) s = .next t) :
    s.Ready ∧
    (s.mode = some .standard ∧ stdDecode c s = .next t ∨
     s.mode = some .buxtonFull ∧ bxDecode fullRomTable c s = .next t ∨
     s.mode = some .buxtonHalf ∧ bxDecode halfRomTable c s = .next t) := by
  obtain ⟨hr, h⟩ := admitted_eq_next.mp (show admitted s (decodeOp c s) = .next t from h)
  refine ⟨hr, ?_⟩
  unfold decodeOp at h
  split at h
  · cases h
  · next hm => exact .inl ⟨hm, h⟩
  · next hm => exact .inr (.inl ⟨hm, h⟩)
  · next hm => exact .inr (.inr ⟨hm, h⟩)

/-! The extraction -/

theorem xRaw_of_fires {s : State} (h : s.cfgSpc ≤ s.rawCounter.natAbs) :
    xRaw s = (s.setCounter 0, tdiv s.rawCounter s.cfgSpc) := if_pos h

theorem xRaw_of_not_fires {s : State} (h : s.rawCounter.natAbs < s.cfgSpc) : xRaw s = (s, 0) :=
  if_neg (by omega)

/-- XACC below the threshold touches nothing. -/
theorem xAcc_of_not_fires {s : State} (t : Nat) (h : s.rawCounter.natAbs < s.cfgSpc) : xAcc t s = (s, 0) := by
  unfold xAcc
  rw [xRaw_of_not_fires h, if_pos rfl]

/-- A scaling answers its product, or draws a value that fits. -/
theorem scaledResult_cases (v : Int) (s : State) :
    (fitsResp s.params v ∧ scaledResult v s = (s, v)) ∨
    (¬ fitsResp s.params v ∧ ∃ d, fitsResp s.params d ∧ scaledResult v s = (s.draw, d)) := by
  by_cases h : fitsResp s.params v
  · exact .inl ⟨h, if_pos h⟩
  · have hw : 0 < s.params.respW := by unfold Params.respW; omega
    exact .inr ⟨h, _, ⟨BitVec.le_toInt _, BitVec.toInt_lt⟩, if_neg h⟩

/-- XACC at the threshold clears the counter, stores the time and scales the quotient. -/
theorem xAcc_of_fires {s : State} (t : Nat) (hb : s.cfgSpc ≠ 0) (h : s.cfgSpc ≤ s.rawCounter.natAbs) :
    xAcc t s = scaledResult (tdiv s.rawCounter s.cfgSpc * (accelMul s.params (elapsed s.params t s.lastTs) : Int))
      ((s.setCounter 0).setLastTs t) := by
  have : tdiv s.rawCounter s.cfgSpc ≠ 0 := fun h0 => by
    have := (tdiv_eq_zero_iff hb).mp h0
    omega
  unfold xAcc
  rw [xRaw_of_fires h, if_neg this]

end Sys2Proof.Machine
end

