-- ==== Sys2Proof/Laws/PerInstr.lean ====
section
/-! SUPPORT. Facts about every operation as syntax, one lemma per constructor. -/

namespace Sys2Proof.Laws.ReservedBitsClear

/-- The reserved field of an operation's word is 000 (rule R40), and its operation field is not the reserved 111
(rule R41). -/
def Statement (i : Instr) : Prop := OpWord.rsv (encode i) = 0b000#3 ∧ OpWord.op (encode i) ≠ 0b111#3

theorem nop (port : Port) : Statement (.nop port) := by cases port <;> (unfold Statement; decide)
theorem decode (code : SignalCode) : Statement (.decode code) := by revert code; unfold Statement; decide
theorem init (code : SignalCode) : Statement (.init code) := by revert code; unfold Statement; decide
theorem reset : Statement .reset := by unfold Statement; decide
theorem xraw : Statement .xraw := by unfold Statement; decide
theorem xnorm : Statement .xnorm := by unfold Statement; decide
theorem xacc : Statement .xacc := by unfold Statement; decide

end Sys2Proof.Laws.ReservedBitsClear
end

