-- ==== Sys2Proof/Laws/Step.lean ====
section
/-! SUPPORT. What a step can do, said once, and the arms of `exec`. -/

namespace Sys2Proof.Machine

/-- A step that answers constructs, or runs both ports' operations in the block's order. -/
theorem step_next {s t : State} (h : step s = .next t) :
    s.pins.rst = true ∧ t = (construct s).advance ∨
    s.pins.rst = false ∧ s.params.order = .consumerFirst ∧
      (∃ u v, exec (consumerInstr s) s = .next u ∧ exec (producerInstr s) u = .next v ∧ t = v.advance) ∨
    s.pins.rst = false ∧ s.params.order = .producerFirst ∧
      (∃ u v, exec (producerInstr s) s = .next u ∧ exec (consumerInstr s) u = .next v ∧ t = v.advance) := by
  obtain ⟨e, he, ht⟩ := andThen_eq_next.mp (show andThen (edge s) (fun t => .next t.advance) = .next t from h)
  have ht : t = e.advance := by simpa using ht.symm
  unfold edge at he
  cases hr : s.pins.rst
  · rw [hr, if_neg (by decide)] at he
    unfold cycle at he
    cases ho : s.params.order <;> rw [ho] at he <;> obtain ⟨u, hu, hv⟩ := andThen_eq_next.mp he
    · exact .inr (.inl ⟨rfl, rfl, u, e, hu, hv, ht⟩)
    · exact .inr (.inr ⟨rfl, rfl, u, e, hu, hv, ht⟩)
  · rw [hr, if_pos rfl] at he
    exact .inl ⟨rfl, by rw [ht, ← Host.Outcome.next.inj he]⟩

/-- The host's run, one step unfolded. -/
theorem core_run_succ (M : Host.Core) (k : Nat) (s : M.State) :
    M.run (k + 1) s = (match M.step s with
      | .next t => M.run k t
      | .fault e => .fault e
      | .refused e => .refused e) := rfl

/-- `run` is the host's run of this machine. -/
theorem core_run_eq_run (k : Nat) (s : State) : Sys2Proof.core.run k s = run k s := by
  induction k generalizing s with
  | zero => rfl
  | succ k ih =>
    refine (core_run_succ Sys2Proof.core k s).trans ?_
    rw [run, show Sys2Proof.core.step s = step s from rfl]
    cases step s with
    | next t => exact ih t
    | fault e => rfl
    | refused e => rfl

/-! The arms of `exec` -/

theorem exec_nop_consumer (s : State) :
    exec (.nop .consumer) s = admitted s (.next (s.setResponse false s.respData)) := rfl

theorem exec_nop_producer (s : State) : exec (.nop .producer) s = admitted s (.next s) := rfl

theorem exec_decode (c : SignalCode) (s : State) : exec (.decode c) s = admitted s (decodeOp c s) := rfl

theorem exec_init (c : SignalCode) (s : State) :
    exec (.init c) s = admitted s (.next ((initOp c s).setResponse false (initOp c s).respData)) := rfl

theorem exec_reset (s : State) :
    exec .reset s = admitted s (.next ((resetOp s).setResponse false (resetOp s).respData)) := rfl

theorem exec_xraw (s : State) : exec .xraw s = admitted s (.next ((xRaw s).1.setResponse true (xRaw s).2)) := rfl

theorem exec_xnorm (s : State) :
    exec .xnorm s = admitted s (.next ((xRaw s).1.setResponse true (xRaw s).2.sign)) := rfl

theorem exec_xacc (s : State) :
    exec .xacc s = admitted s (.next ((xAcc (nowOf s) s).1.setResponse true (xAcc (nowOf s) s).2)) := rfl

/-- XACC answers 0 below the threshold; at it, it clears the counter, stores the time and answers a value that fits. -/
theorem execXacc_next {s t : State} (h : exec .xacc s = .next t) :
    s.Ready ∧
    (s.rawCounter.natAbs < s.cfgSpc ∧ t = s.setResponse true 0 ∨
     s.cfgSpc ≤ s.rawCounter.natAbs ∧ ∃ n v, fitsResp s.params v ∧
       t = { s with rawCounter := 0, lastTs := nowOf s, respValid := true, respData := v, draws := n }) := by
  rw [exec_xacc] at h
  obtain ⟨hr, h⟩ := admitted_eq_next.mp h
  refine ⟨hr, ?_⟩
  rcases Nat.lt_or_ge s.rawCounter.natAbs s.cfgSpc with hf | hf
  · rw [xAcc_of_not_fires _ hf] at h
    exact .inl ⟨hf, (Host.Outcome.next.inj h).symm⟩
  · rw [xAcc_of_fires _ (fun h0 => hr (.inr h0)) hf] at h
    refine .inr ⟨hf, ?_⟩
    rcases scaledResult_cases (tdiv s.rawCounter s.cfgSpc * (accelMul s.params (elapsed s.params (nowOf s) s.lastTs) : Int))
      ((s.setCounter 0).setLastTs (nowOf s)) with ⟨hv, he⟩ | ⟨-, d, hv, he⟩
    · rw [he] at h
      exact ⟨s.draws, _, hv, (Host.Outcome.next.inj h).symm⟩
    · rw [he] at h
      exact ⟨s.draws + 1, d, hv, (Host.Outcome.next.inj h).symm⟩

/-- An operation that answers ran on an admitted state, and an operation that is not DECODE always answers there. -/
theorem exec_next_ready {i : Instr} {s t : State} (h : exec i s = .next t) : s.Ready := by
  cases i with
  | nop port => cases port <;> exact (admitted_eq_next.mp h).1
  | decode c => exact (admitted_eq_next.mp h).1
  | init c => exact (admitted_eq_next.mp h).1
  | reset => exact (admitted_eq_next.mp h).1
  | xraw => exact (admitted_eq_next.mp h).1
  | xnorm => exact (admitted_eq_next.mp h).1
  | xacc => exact (admitted_eq_next.mp h).1

end Sys2Proof.Machine
end

