-- ==== Sys2Proof/Tests/Slice0.lean ====
section
/-! SUPPORT. Tests: the checks of WellFormed on ill-formed terms; words written out from rules R40 and R41; steps of
the vectors in 95_test_vectors.md; and, for every obligation with hypotheses, states that meet them. -/

namespace Sys2Proof.Tests

open Sys2Proof Sys2Proof.Machine

/-! Helpers -/

/-- A state with the default parameters. -/
def st (m : Mode) (spc : Nat) (prev : SignalCode) (row : FsmRow) (cnt : Int) (ts : Nat := 0) : State :=
  { State.reset with
    cfgMode := m.code, cfgSpc := spc, prevCode := prev, fsmState := row, rawCounter := cnt, lastTs := ts }

/-- `s` with these words on its ports at the coming edge. -/
def ports (s : State) (p c : OpWord) (now : Nat := 0) : State :=
  { s with pins := { Pins.idle with pOp := p, cOp := c, nowMs := now } }

/-- `s` with `rst = 1` and this configuration at the coming edge, then the edges of `later`. -/
def held (s : State) (m : ModeCode) (spc : Nat) (later : List Pins := []) : State :=
  { s with pins := { Pins.idle with rst := true, cfgMode := m, cfgSpc := spc }, schedule := later }

/-- `s` under `OVERFLOW_POLICY = Fault`. -/
def faulting (s : State) : State := { s with params := { s.params with overflow := .fault } }

/-- `s` under `SAME_CYCLE_ORDER = ProducerFirst`. -/
def producerFirst (s : State) : State := { s with params := { s.params with order := .producerFirst } }

/-- `s` with another `FAST_MUL`. -/
def withFastMul (n : Nat) (s : State) : State := { s with params := { s.params with fastMul := n } }

/-- The counter, the timestamp and the validity of a next state. -/
def cleared? : Result → Option (Int × Nat × Bool)
  | .next t => some (t.rawCounter, t.lastTs, t.respValid)
  | .fault _ => none
  | .refused _ => none

/-- The six registers operations write. -/
structure Regs where
  prevCode : Nat
  fsmState : Nat
  rawCounter : Int
  lastTs : Nat
  respValid : Bool
  respData : Int
  deriving DecidableEq, Repr

/-- The registers of a next state. -/
def regs : Result → Option Regs
  | .next t => some ⟨t.prevCode.toNat, t.fsmState.toNat, t.rawCounter, t.lastTs, t.respValid, t.respData⟩
  | .fault _ => none
  | .refused _ => none

/-- The configuration of a next state. -/
def config : Result → Option (Nat × Nat)
  | .next t => some (t.cfgMode.toNat, t.cfgSpc)
  | .fault _ => none
  | .refused _ => none

/-! Well-formedness refuses (rules R6, R41, R45, R46, R50) -/

theorem test_wf_params_default : Params.default.Legal := by decide
theorem test_wf_params_counterW : ¬ { Params.default with counterW := 3 }.Legal := by decide
theorem test_wf_params_stepsW : ¬ { Params.default with stepsW := 0 }.Legal := by decide
theorem test_wf_params_timeW : ¬ { Params.default with timeW := 7 }.Legal := by decide
theorem test_wf_params_thresholds : ¬ { Params.default with fastMs := 60 }.Legal := by decide
theorem test_wf_params_slowMs : ¬ { Params.default with timeW := 8, slowMs := 256 }.Legal := by decide
theorem test_wf_params_multipliers : { Params.default with fastMul := 9, slowMul := 5, baseMul := 0 }.Legal := by decide
theorem test_wf_port : (Instr.decode 0b01#2).legalOn .consumer = false ∧ Instr.reset.legalOn .producer = false ∧
    (Instr.init 0b11#2).legalOn .producer = false ∧ Instr.xraw.legalOn .producer = false ∧
    Instr.xnorm.legalOn .producer = false ∧ Instr.xacc.legalOn .producer = false ∧
    (Instr.nop .producer).legalOn .consumer = false := by decide
theorem test_wf_config : { Pins.idle with cfgMode := 0b11#2, cfgSpc := 4 }.configOk Params.default = false ∧
    { Pins.idle with cfgMode := 0b00#2, cfgSpc := 0 }.configOk Params.default = false ∧
    { Pins.idle with cfgMode := 0b01#2, cfgSpc := 0 }.configOk Params.default = true := by decide
theorem test_wf_pins : { Pins.idle with cfgSpc := 256 }.fits Params.default = false ∧
    { Pins.idle with nowMs := 4294967296 }.fits Params.default = false := by decide
theorem test_wf_line_ports : (Line.cycle .xraw (.nop .consumer) none).wf Params.default = false ∧
    (Line.cycle (.nop .producer) (.decode 0b01#2) none).wf Params.default = false := by decide
theorem test_wf_line_time : (Line.consume .xacc).wf Params.default = false ∧
    (Line.cycle (.nop .producer) .xacc (some 4294967296)).wf Params.default = false := by decide
theorem test_wf_line_rst : (Line.rst .standard 0).wf Params.default = false ∧
    (Line.rst .buxtonFull 256).wf Params.default = false ∧ (Line.rst .buxtonHalf 0).wf Params.default = true := by
  decide

/-! Decoding: `op[7:5] rsv[4:2] code[1:0]` written out from rules R40 and R41 -/

theorem test_decode_nop : portDecode .producer 0b00000000#8 = .ok (.nop .producer) ∧
    portDecode .consumer 0b00000000#8 = .ok (.nop .consumer) := by decide
theorem test_decode_decode : portDecode .producer 0b00100010#8 = .ok (.decode 0b10#2) := by decide
theorem test_decode_init : portDecode .consumer 0b01000011#8 = .ok (.init 0b11#2) := by decide
theorem test_decode_reset : portDecode .consumer 0b01100000#8 = .ok .reset := by decide
theorem test_decode_xraw : portDecode .consumer 0b10000000#8 = .ok .xraw := by decide
theorem test_decode_xnorm : portDecode .consumer 0b10100000#8 = .ok .xnorm := by decide
theorem test_decode_xacc : portDecode .consumer 0b11000000#8 = .ok .xacc := by decide

/-- Rule R43, one word for each of its clauses. -/
theorem test_decode_illegal : portDecode .producer 0x24#8 = .error .reservedBits ∧
    portDecode .consumer 0xE0#8 = .error .reservedOp ∧ portDecode .consumer 0x81#8 = .error .nonzeroCode ∧
    portDecode .producer 0x01#8 = .error .nonzeroCode ∧ portDecode .consumer 0x20#8 = .error .wrongPort ∧
    portDecode .producer 0x60#8 = .error .wrongPort := by decide

/-- Rule R50's examples. -/
theorem test_encode : encode (.decode 0b10#2) = 0x22#8 ∧ encode (.init 0b11#2) = 0x43#8 ∧ encode .xacc = 0xC0#8 := by
  decide

theorem test_text : (Line.cycle (.nop .producer) .xacc (some 10)).text = "- || XACC @10" ∧
    (Line.cycle (.decode 0b11#2) .xraw none).text = "DECODE 11 || XRAW" ∧
    (Line.rst .buxtonFull 0).text = "rst mode=BuxtonFull spc=0" := by decide

/-! The host's words -/

theorem test_table_word : decodeTableWord 8 0x20 = some (.decode 0b00#2) ∧
    decodeTableWord 8 0x00 = some (.nop .consumer) ∧ decodeTableWord 8 0xC0 = some .xacc ∧
    decodeTableWord 8 0x84 = none := by decide

/-- DECODE 01 as the first operation after reset (rule R52's example). -/
theorem test_first_word : regs (step (State.reset.withFetchWord 8 0x21)) = some ⟨1, 0, 1, 0, false, 0⟩ := by decide

/-! Construction (V-R1) -/

theorem test_construct_standard : step (held (st .buxtonHalf 1 0b01#2 5#3 9 77) 0b00#2 4) = .next State.reset := by
  rfl
theorem test_construct_buxton :
    config (step (held State.reset 0b01#2 0)) = some (1, 1) ∧
    config (step (held State.reset 0b10#2 255)) = some (2, 1) ∧
    regs (step (held (st .buxtonHalf 1 0b01#2 5#3 9 77) 0b01#2 0)) = some ⟨0, 0, 0, 0, false, 0⟩ := by decide

/-! Operations, at most two tests each -/

/-- V-S1 index 14, and V-C1 at the limit. -/
theorem test_exec_decode_standard :
    regs (exec (.decode 0b10#2) (st .standard 4 0b11#2 0#3 5)) = some ⟨2, 0, 6, 0, false, 0⟩ ∧
    regs (exec (.decode 0b01#2) (st .standard 4 0b00#2 0#3 32767)) = some ⟨1, 0, 32767, 0, false, 0⟩ := by decide

/-- V-F4 cell (5, 11); the Half cells (2, 00) of rule R56. -/
theorem test_exec_decode_buxton :
    regs (exec (.decode 0b11#2) (st .buxtonFull 1 0b00#2 5#3 0)) = some ⟨0, 0, 1, 0, false, 0⟩ ∧
    regs (exec (.decode 0b00#2) (st .buxtonHalf 1 0b00#2 2#3 0)) = some ⟨0, 3, -1, 0, false, 0⟩ := by decide

/-- Rule R75's example, and its corner (b). -/
theorem test_exec_init :
    regs (exec (.init 0b11#2) (st .standard 4 0b00#2 0#3 7)) = some ⟨3, 0, 7, 0, false, 0⟩ ∧
    regs (exec (.init 0b11#2) (st .buxtonHalf 1 0b00#2 4#3 7)) = some ⟨0, 0, 7, 0, false, 0⟩ := by decide

/-- Rule R76's example, and its corner (a). -/
theorem test_exec_reset :
    regs (exec .reset (st .buxtonFull 1 0b00#2 6#3 (-3) 9)) = some ⟨0, 0, 0, 9, false, 0⟩ ∧
    regs (exec .reset (st .standard 4 0b11#2 0#3 3 9)) = some ⟨3, 0, 0, 9, false, 0⟩ := by decide

/-- Rules R64 and R65. -/
theorem test_exec_xraw :
    regs (exec .xraw (st .standard 4 0b01#2 0#3 (-7) 9)) = some ⟨1, 0, 0, 9, true, -1⟩ ∧
    regs (exec .xraw (st .standard 4 0b01#2 0#3 (-3) 9)) = some ⟨1, 0, -3, 9, true, 0⟩ := by decide

/-- Rule R69's example. -/
theorem test_exec_xnorm : regs (exec .xnorm (st .standard 4 0b01#2 0#3 (-9) 9)) = some ⟨1, 0, 0, 9, true, -1⟩ := by
  decide

/-- W9's first row, and the same 10 ms across a wrap of the clock (rule R71). -/
theorem test_exec_xacc :
    regs (exec .xacc (ports (st .buxtonFull 1 0b00#2 0#3 1 1000) 0x00#8 0xC0#8 1010)) =
      some ⟨0, 0, 0, 1010, true, 4⟩ ∧
    regs (exec .xacc (ports (st .buxtonFull 1 0b00#2 0#3 1 4294967291) 0x00#8 0xC0#8 5)) =
      some ⟨0, 0, 0, 5, true, 4⟩ := by decide

/-- Rule R78's example. -/
theorem test_exec_nop :
    regs (step { st .standard 4 0b01#2 0#3 3 with respValid := true, respData := 2 }) =
      some ⟨1, 0, 3, 0, false, 2⟩ := by decide

/-! Cycles (V-Y1, V-Y2, V-Y3), and the stops -/

theorem test_cycle_y1 :
    regs (step (ports (st .standard 4 0b01#2 0#3 3) 0x23#8 0x80#8)) = some ⟨3, 0, 4, 0, true, 0⟩ ∧
    regs (step (producerFirst (ports (st .standard 4 0b01#2 0#3 3) 0x23#8 0x80#8))) =
      some ⟨3, 0, 0, 0, true, 1⟩ := by decide

theorem test_cycle_y3 :
    regs (step (ports (st .buxtonHalf 1 0b00#2 1#3 0) 0x20#8 0x43#8)) = some ⟨0, 3, 0, 0, false, 0⟩ ∧
    regs (step (producerFirst (ports (st .buxtonHalf 1 0b00#2 1#3 0) 0x20#8 0x43#8))) =
      some ⟨0, 0, 1, 0, false, 0⟩ := by decide

/-- P4's cycle 3: two illegal words. -/
theorem test_cycle_illegal :
    regs (step (ports { st .standard 1 0b01#2 0#3 1 with respValid := true } 0x60#8 0x81#8)) =
      some ⟨1, 0, 1, 0, false, 0⟩ := by decide

theorem test_stop_overflow :
    step (faulting (ports (st .standard 4 0b00#2 0#3 32767) 0x21#8 0x00#8)) = .fault .counterOverflow := by rfl

theorem test_stop_bad_configuration : step { State.reset with cfgSpc := 0 } = .refused .badConfiguration ∧
    step { State.reset with cfgMode := 0b11#2 } = .refused .badConfiguration := by exact ⟨rfl, rfl⟩

/-- A multiplier above 4 (D29): a product that fits is the response; one that does not still clears and stores. -/
theorem test_exec_xacc_multiplier :
    regs (exec .xacc (withFastMul 9 (ports (st .buxtonFull 1 0b00#2 0#3 2 1000) 0x00#8 0xC0#8 1010))) =
      some ⟨0, 0, 0, 1010, true, 18⟩ ∧
    cleared? (exec .xacc (withFastMul 9 (ports (st .buxtonFull 1 0b00#2 0#3 32767 1000) 0x00#8 0xC0#8 1010))) =
      some (0, 1010, true) := by decide

/-! Witnesses: for every obligation with hypotheses, concrete states and operands that meet all of them together, one
for each clause, at a boundary where the clause has one. -/

theorem witness_ConstructionSetsEveryRegister :
    (∃ s t, s.pins.rst = true ∧ step s = .next t ∧ t.pins.rst = true) ∧
    (∃ s t, s.pins.rst = true ∧ step s = .next t ∧ t.pins.rst = false) ∧
    (∃ s t, s.pins.rst = false ∧ step s = .next t) :=
  ⟨⟨held State.reset 0b01#2 4 [(held State.reset 0b00#2 4).pins], _, rfl, rfl, rfl⟩,
    ⟨held State.reset 0b01#2 4, _, rfl, rfl, rfl⟩, ⟨State.reset, _, rfl, rfl⟩⟩

theorem witness_BadConfigurationsRefusedAtRelease :
    (∀ x ∈ [(0b11#2, 4), (0b00#2, 0), (0b00#2, 256), (0b01#2, 0), (0b10#2, 0)],
      (held State.reset x.1 x.2).params.Legal ∧ (held State.reset x.1 x.2).pins.rst = true ∧
      (x.1 = 0b00#2 → x.2 % 2 ^ 8 = 0)) ∧
    ∀ m n, ∃ u, step (held State.reset m n) = .next u ∧ u.pins.rst = false :=
  ⟨by decide, fun _ _ => ⟨_, rfl, rfl⟩⟩

theorem witness_NoOperationWithoutAdmission :
    ({ State.reset with cfgSpc := 0 } : State).BadConfig ∧
    ({ State.reset with cfgMode := 0b11#2 } : State).BadConfig := by decide

theorem witness_ConfigurationReadOnlyDuringConstruction :
    (∃ s : State, s.pins.rst = false) ∧ ∃ s t, step s = .next t ∧ (t.cfgMode ≠ s.cfgMode ∨ t.cfgSpc ≠ s.cfgSpc) :=
  ⟨⟨State.reset, rfl⟩, held State.reset 0b01#2 4, _, rfl, .inl (by decide)⟩

theorem witness_ClockReadOnlyByXacc :
    (held State.reset 0b00#2 4).pins.rst = true ∧ consumerInstr (ports State.reset 0x00#8 0x80#8 7) ≠ .xacc := by decide

theorem witness_IllegalWordsActAsNop :
    (ports State.reset 0x24#8 0x81#8).Ready ∧ (ports State.reset 0x24#8 0x81#8).pins.rst = false ∧
    portDecode .consumer 0x81#8 = .error .nonzeroCode ∧ portDecode .producer 0x24#8 = .error .reservedBits := by decide

theorem witness_DecodeEncodeAgree : portDecode .producer 0x23#8 = .ok (.decode 0b11#2) := by decide

theorem witness_AssembledLinesReadBack :
    (Line.cycle (.decode 0b11#2) .xacc (some 4294967295)).wf Params.default = true ∧
    (Line.rst .standard 255).wf Params.default = true ∧ (Line.rst .buxtonHalf 0).wf Params.default = true := by decide

theorem witness_StepRunsTheDecodedOperations :
    (ports State.reset 0x23#8 0x80#8).pins.rst = false ∧ portDecode .consumer 0x80#8 = .ok .xraw ∧
    portDecode .producer 0x23#8 = .ok (.decode 0b11#2) ∧ State.reset.params.order = .consumerFirst ∧
    (producerFirst State.reset).params.order = .producerFirst := by decide

theorem witness_LoneOperationIsOneCycle :
    (ports State.reset 0x00#8 0xC0#8).pins.rst = false ∧ Instr.xacc.legalOn .consumer = true ∧
    0xC0#8 = encode .xacc ∧ 0x20#8 = encode (.decode 0b00#2) := by decide

theorem witness_StepIsRuleCycle :
    (ports State.reset 0x23#8 0x80#8).Ready ∧ (ports State.reset 0x23#8 0x80#8).pins.rst = false := by decide

theorem witness_tables : romCell fullRomTable 5#3 0b11#2 = some 0x10#6 ∧ romCell fullRomTable 6#3 0b00#2 = some 0x06#6 ∧
    romCell halfRomTable 5#3 0b11#2 = some 0x10#6 ∧ romCell halfRomTable 1#3 0b00#2 = some 0x13#6 := by decide

theorem inv_full : (st .buxtonFull 1 0b00#2 6#3 32767 4294967295).Inv := by constructor <;> decide
theorem inv_half : (st .buxtonHalf 1 0b00#2 5#3 (-32767)).Inv := by constructor <;> decide
theorem inv_standard : (st .standard 255 0b11#2 0#3 32767).Inv := by constructor <;> decide

theorem witness_TableAccessesInRange :
    (st .buxtonFull 1 0b00#2 6#3 32767 4294967295).Inv ∧
    (st .buxtonFull 1 0b00#2 6#3 32767 4294967295).mode = some .buxtonFull ∧
    (st .buxtonHalf 1 0b00#2 5#3 (-32767)).Inv ∧ (st .buxtonHalf 1 0b00#2 5#3 (-32767)).mode = some .buxtonHalf :=
  ⟨inv_full, by decide, inv_half, by decide⟩

theorem witness_SaturatingAdd :
    (∀ x ∈ [((32766 : Int), (1 : Int)), (-32766, -1), (32767, 0)], (x.1 + x.2).natAbs ≤ Params.default.cntMax) ∧
    (∀ x ∈ [((32767 : Int), (1 : Int)), (-32767, -1)], x.1.natAbs ≤ Params.default.cntMax ∧ x.2.natAbs ≤ 1 ∧
      Params.default.cntMax < (x.1 + x.2).natAbs) := by decide

theorem witness_StandardDecodeResult :
    (st .standard 4 0b00#2 0#3 32767).Ready ∧ (st .standard 4 0b00#2 0#3 32767).mode = some .standard ∧
    (faulting (st .standard 4 0b00#2 0#3 32767)).Ready ∧ (st .standard 4 0b00#2 0#3 32766).Ready ∧
    stdDelta 0b00#2 0b01#2 = 1 ∧ ((32766 : Int) + 1).natAbs ≤ Params.default.cntMax ∧
    Params.default.cntMax < ((32767 : Int) + 1).natAbs := by decide

theorem witness_BuxtonDecodeResult :
    (st .buxtonFull 1 0b00#2 5#3 32767).Ready ∧ (st .buxtonFull 1 0b00#2 5#3 32767).mode = some .buxtonFull ∧
    (faulting (st .buxtonFull 1 0b00#2 5#3 32767)).Ready ∧
    romCell (romOf .buxtonFull) 5#3 0b11#2 = some 0x10#6 ∧ romDelta 0x10#6 = 1 ∧
    (st .buxtonHalf 1 0b00#2 4#3 (-32766)).Ready ∧ (st .buxtonHalf 1 0b00#2 4#3 (-32766)).mode = some .buxtonHalf ∧
    romCell (romOf .buxtonHalf) 4#3 0b11#2 = some 0x20#6 ∧ romDelta 0x20#6 = -1 ∧
    ((-32766 : Int) + -1).natAbs ≤ Params.default.cntMax ∧ Params.default.cntMax < ((32767 : Int) + 1).natAbs := by
  decide

theorem witness_DecodeRunsTheEngineOfItsMode :
    (st .standard 4 0b00#2 0#3 0).Ready ∧ (st .standard 4 0b00#2 0#3 0).cfgMode = 0b00#2 ∧
    (st .buxtonFull 1 0b00#2 0#3 0).Ready ∧ (st .buxtonFull 1 0b00#2 0#3 0).cfgMode = 0b01#2 ∧
    (st .buxtonHalf 1 0b00#2 0#3 0).Ready ∧ (st .buxtonHalf 1 0b00#2 0#3 0).cfgMode = 0b10#2 := by decide

theorem witness_DecodeCompletes :
    (st .buxtonFull 1 0b00#2 6#3 32767 4294967295).Inv ∧ (st .buxtonFull 1 0b00#2 6#3 32767 4294967295).Ready ∧
    (st .buxtonFull 1 0b00#2 6#3 32767 4294967295).params.overflow = .saturate :=
  ⟨inv_full, by decide, rfl⟩

theorem witness_DecodeFrame :
    (∃ t, exec (.decode 0b01#2) (st .standard 4 0b00#2 0#3 (-1)) = .next t) ∧
    (st .standard 4 0b00#2 0#3 (-1)).mode = some .standard ∧
    (∃ t, exec (.decode 0b11#2) (st .buxtonFull 1 0b00#2 1#3 0) = .next t) ∧
    (st .buxtonFull 1 0b00#2 1#3 0).mode ≠ some .standard :=
  ⟨⟨_, rfl⟩, by decide, ⟨_, rfl⟩, by decide⟩

theorem witness_FaultsOnlyUnderFaultPolicy : ∃ s f, step s = .fault f :=
  ⟨faulting (ports (st .standard 4 0b00#2 0#3 32767) 0x21#8 0x00#8), _, rfl⟩

theorem witness_ElectricalCycleCounts :
    (∀ x ∈ [(32763 : Int), -32763], (st .standard 4 0b11#2 0#3 x).Ready ∧
      (st .standard 4 0b11#2 0#3 x).rawCounter.natAbs + 4 ≤ (st .standard 4 0b11#2 0#3 x).params.cntMax) ∧
    (st .standard 4 0b11#2 0#3 0).mode = some .standard ∧
    (st .buxtonFull 1 0b00#2 0#3 0).Ready ∧ (st .buxtonFull 1 0b00#2 0#3 0).mode = some .buxtonFull ∧
    (st .buxtonHalf 1 0b00#2 0#3 0).Ready ∧ (st .buxtonHalf 1 0b00#2 0#3 0).mode = some .buxtonHalf := by decide

theorem witness_StandardCycleFromAnyCode :
    (st .standard 4 0b10#2 0#3 32763).Ready ∧ (st .standard 4 0b10#2 0#3 32763).mode = some .standard ∧
    (st .standard 4 0b10#2 0#3 32763).rawCounter.natAbs + 4 ≤ Params.default.cntMax ∧
    ∃ n : SignalCode → SignalCode,
      n 0b00#2 = 0b01#2 ∧ n 0b01#2 = 0b11#2 ∧ n 0b11#2 = 0b10#2 ∧ n 0b10#2 = 0b00#2 :=
  ⟨by decide, by decide, by decide,
    fun a => if a = 0b00#2 then 0b01#2 else if a = 0b01#2 then 0b11#2 else if a = 0b11#2 then 0b10#2 else 0b00#2,
    by decide⟩

/-- W6: the bounce 01, 11 in Buxton-Full; and a count followed by its repeat. -/
theorem witness_QuietSequencesDoNotCount :
    (Quiet [0b01#2, 0b11#2] (st .buxtonFull 1 0b00#2 0#3 0) ∧
      ∃ t, execAll ([0b01#2, 0b11#2].map .decode) (st .buxtonFull 1 0b00#2 0#3 0) = .next t) ∧
    ∃ t u, exec (.decode 0b11#2) (st .buxtonFull 1 0b00#2 5#3 0) = .next t ∧
      t.rawCounter ≠ (st .buxtonFull 1 0b00#2 5#3 0).rawCounter ∧ exec (.decode 0b11#2) t = .next u := by
  refine ⟨⟨⟨by decide, by decide, by decide, fun t h => ?_⟩, _, rfl⟩, _, _, rfl, by decide, rfl⟩
  cases h
  exact ⟨by decide, by decide, by decide, fun _ _ => trivial⟩

theorem witness_RepeatAfterJumpMovesAgain :
    (∀ r ∈ [1#3, 2#3, 4#3, 5#3], (st .buxtonFull 1 0b00#2 r 0).Ready ∧ (st .buxtonFull 1 0b00#2 r 0).fsmState = r ∧
      (st .buxtonFull 1 0b00#2 r 0).mode = some .buxtonFull ∧ (st .buxtonHalf 1 0b00#2 r 0).Ready ∧
      (st .buxtonHalf 1 0b00#2 r 0).fsmState = r ∧ (st .buxtonHalf 1 0b00#2 r 0).mode = some .buxtonHalf) ∧
    romCell (romOf .buxtonFull) 1#3 0b01#2 = some 0x00#6 ∧ romCell (romOf .buxtonFull) (romNext 0x00#6) 0b01#2 = some 0x02#6 := by
  decide

theorem witness_FirstCountAfterRestAt00 :
    Params.default.Legal ∧
    (st .buxtonFull 1 0b00#2 0#3 0).Ready ∧ (st .buxtonFull 1 0b00#2 0#3 0).mode = some .buxtonFull ∧
    (st .buxtonHalf 1 0b00#2 0#3 0).Ready ∧ (st .buxtonHalf 1 0b00#2 0#3 0).mode = some .buxtonHalf ∧
    (st .buxtonHalf 1 0b00#2 0#3 0).fsmState = 0#3 ∧ (st .buxtonHalf 1 0b00#2 0#3 0).rawCounter = 0 := by decide

theorem witness_MissedEdgesMiscount :
    (st .standard 4 0b00#2 0#3 32764).Ready ∧ (st .standard 4 0b00#2 0#3 32764).mode = some .standard ∧
    (st .standard 4 0b00#2 0#3 32764).prevCode = 0b00#2 ∧
    (st .standard 4 0b00#2 0#3 32764).rawCounter.natAbs + 3 ≤ Params.default.cntMax := by decide

/-- For XrawResult, XnormResult, FiringExtractionDropsRemainder: at the threshold and one below it, both signs. -/
theorem witness_extractions :
    (∀ x ∈ [(4 : Int), -4, 6], (st .standard 4 0b00#2 0#3 x).Ready ∧
      (st .standard 4 0b00#2 0#3 x).cfgSpc ≤ (st .standard 4 0b00#2 0#3 x).rawCounter.natAbs) ∧
    (∀ x ∈ [(3 : Int), -3, 0], (st .standard 4 0b00#2 0#3 x).Ready ∧
      (st .standard 4 0b00#2 0#3 x).rawCounter.natAbs < (st .standard 4 0b00#2 0#3 x).cfgSpc) := by decide

theorem witness_XrawRoundsTowardZero : ∀ x ∈ [(7 : Int), -7, 4, -4, 3, -3, 0],
    (st .standard 4 0b00#2 0#3 x).Ready ∧ (st .standard 4 0b00#2 0#3 x).cfgSpc = 4 ∧
    (st .standard 4 0b00#2 0#3 x).rawCounter = x := by decide

theorem witness_PartialProgressIsKept :
    ((st .standard 4 0b00#2 0#3 (-3)).Ready ∧ (st .standard 4 0b00#2 0#3 (-3)).rawCounter.natAbs < 4 ∧
      ∀ i ∈ [Instr.xraw, .xacc, .xnorm], i = .xraw ∨ i = .xnorm ∨ i = .xacc) ∧
    (∃ t, exec (.init 0b11#2) (st .standard 4 0b00#2 0#3 3) = .next t) ∧
    (st .buxtonFull 1 0b00#2 6#3 32767 4294967295).Inv ∧ (st .buxtonFull 1 0b00#2 6#3 32767 4294967295).Ready ∧
    (st .buxtonFull 1 0b00#2 6#3 32767 4294967295).mode ≠ some .standard :=
  ⟨by decide, ⟨_, rfl⟩, inv_full, by decide, by decide⟩

/-- The largest result, `4 * 32767`; and a divisor above `CNT_MAX`. -/
theorem witness_ResultsFitTheResponse :
    (∃ s t, s.Inv ∧ exec .xacc s = .next t ∧ s.params.slowMul ≤ s.params.fastMul ∧
      s.params.baseMul ≤ s.params.fastMul ∧ s.params.fastMul ≤ 4 ∧ t.respData = 131068) ∧
    (∃ s t, s.Inv ∧ exec .xnorm s = .next t ∧ t.respData = -1) ∧
    (∃ s t, s.Inv ∧ exec .xraw s = .next t ∧ s.params.cntMax < s.cfgSpc) := by
  refine ⟨⟨st .buxtonFull 1 0b00#2 6#3 32767 4294967295, _, inv_full, rfl, by decide, by decide, by decide, by decide⟩,
    ⟨st .buxtonHalf 1 0b00#2 5#3 (-32767), _, inv_half, rfl, by decide⟩,
    ⟨{ st .standard 255 0b00#2 0#3 7 with params := { Params.default with counterW := 4 } }, _, ?_, rfl, by decide⟩⟩
  constructor <;> decide

/-- Elapsed times 24, 25, 59 and 60 and their multipliers, and below the threshold. -/
theorem witness_XaccResult :
    (∀ x ∈ [(1024, 4), (1025, 2), (1059, 2), (1060, 1)],
      (ports (st .standard 4 0b00#2 0#3 (-4) 1000) 0x00#8 0xC0#8 x.1).Ready ∧
      x.1 = x.1 % 2 ^ 32 ∧ ((x.1 - 1000 : Nat) : Int) = ((x.1 : Int) - 1000) % 2 ^ 32 ∧
      x.2 = (if x.1 - 1000 < 25 then 4 else if x.1 - 1000 < 60 then 2 else 1) ∧
      fitsResp Params.default (tdiv (-4) 4 * x.2)) ∧
    (st .standard 4 0b00#2 0#3 3).Ready ∧ (3 : Int).natAbs < 4 := by decide

/-- The least product that does not fit 18 bits, and one of the greatest. -/
theorem witness_XaccPastTheResponse : ∀ x ∈ [(5, 26215), (32769, 32767)],
    (withFastMul x.1 (ports (st .buxtonFull 1 0b00#2 0#3 x.2 1000) 0x00#8 0xC0#8 1010)).Ready ∧
    (withFastMul x.1 State.reset).params.Legal ∧ (1 : Nat) ≤ x.2.natAbs ∧ ((10 : Nat) : Int) = (1010 - 1000) % 2 ^ 32 ∧
    ¬ fitsResp Params.default (tdiv x.2 1 * (accelMul (withFastMul x.1 State.reset).params 10 : Int)) := by decide

theorem witness_ElapsedTimeIsModular : ∃ s : State, s.Inv ∧ s.Ready ∧ s.cfgSpc ≤ s.rawCounter.natAbs ∧
    s.pins.nowMs = s.lastTs + 4294967306 ∧
    fitsResp s.params (tdiv s.rawCounter s.cfgSpc * (accelMul s.params (4294967306 % 2 ^ s.params.timeW) : Int)) := by
  refine ⟨ports (st .buxtonFull 1 0b00#2 6#3 1 1000) 0x00#8 0xC0#8 4294968306, ?_, by decide, by decide, by decide,
    by decide⟩
  constructor <;> decide

theorem witness_TimestampOnlyOnNonzeroXacc :
    (∃ t, exec .xacc (st .standard 4 0b00#2 0#3 (-4)) = .next t) ∧ tdiv (-4) 4 ≠ 0 ∧
    (∃ t, exec .xacc (st .standard 4 0b00#2 0#3 3) = .next t) ∧ tdiv 3 4 = 0 ∧
    (∃ t, exec .xraw (st .standard 4 0b00#2 0#3 4) = .next t) ∧
    ((ports State.reset 0x21#8 0xA0#8).pins.rst = false ∧ consumerInstr (ports State.reset 0x21#8 0xA0#8) ≠ .xacc ∧
      ∃ t, step (ports State.reset 0x21#8 0xA0#8) = .next t) :=
  ⟨⟨_, rfl⟩, by decide, ⟨_, rfl⟩, by decide, ⟨_, rfl⟩, rfl, by decide, _, rfl⟩

/-- For InitResult, ResetResult, NopResult. -/
theorem witness_lifecycle :
    (st .standard 4 0b00#2 0#3 3).Ready ∧ (st .standard 4 0b00#2 0#3 3).mode = some .standard ∧
    (st .buxtonHalf 1 0b00#2 5#3 3).Ready ∧ (st .buxtonHalf 1 0b00#2 5#3 3).mode ≠ some .standard ∧
    portDecode .consumer 0xFF#8 = .error .reservedBits ∧ State.reset.pins.rst = false ∧
    State.reset.pins.pOp = 0x00#8 ∧ State.reset.pins.cOp = 0x00#8 := by decide

theorem witness_BootSequence :
    (∃ s t, s.pins.rst = true ∧ step s = .next t ∧ t.Ready ∧ t.mode = some .standard) ∧
    ∃ s t, s.pins.rst = true ∧ step s = .next t ∧ t.Ready ∧ t.mode ≠ some .standard :=
  ⟨⟨held State.reset 0b00#2 4, _, rfl, rfl, by decide, by decide⟩,
    ⟨held State.reset 0b10#2 0, _, rfl, rfl, by decide, by decide⟩⟩

/-- W8 (a), with XACC where `lastTs` is 0; and (b), a Buxton block in mid-cycle, without XACC. -/
theorem witness_ResetMatchesFreshBlock :
    (∃ s r g : State, s.Ready ∧ exec .reset s = .next r ∧
      exec (.init 0b11#2)
        { s with
          prevCode := 0b00#2, fsmState := 0#3, rawCounter := 0, lastTs := 0, respValid := false, respData := 0 } =
        .next g ∧ s.mode = some .standard ∧ s.prevCode = 0b11#2 ∧ s.lastTs = 0) ∧
    ∃ s r g : State, s.Ready ∧ exec .reset s = .next r ∧
      exec (.init 0b11#2)
        { s with
          prevCode := 0b00#2, fsmState := 0#3, rawCounter := 0, lastTs := 0, respValid := false, respData := 0 } =
        .next g ∧ s.mode ≠ some .standard ∧ ∀ i ∈ cwCodes.map Instr.decode ++ [.xraw], i ≠ .xacc :=
  ⟨⟨st .standard 4 0b11#2 0#3 3, _, _, by decide, rfl, rfl, by decide, rfl, rfl⟩,
    ⟨st .buxtonFull 1 0b00#2 6#3 3 9, _, _, by decide, rfl, rfl, by decide, by decide⟩⟩

theorem witness_ResetConditionsAreNeeded :
    Params.default.Legal ∧
    (st .standard 1 0b11#2 0#3 0).Ready ∧ (st .standard 1 0b11#2 0#3 0).mode = some .standard ∧
    ∀ x ∈ [1000, 0], (ports (st .buxtonFull 1 0b00#2 6#3 3 x) 0x00#8 0x00#8 1010).Ready ∧
      (ports (st .buxtonFull 1 0b00#2 6#3 3 x) 0x00#8 0x00#8 1010).mode = some .buxtonFull ∧
      (ports (st .buxtonFull 1 0b00#2 6#3 3 x) 0x00#8 0x00#8 1010).params = Params.default := by decide

/-- Two agreeing blocks that differ where their mode does not look; and RESET's own case is
`witness_ResetMatchesFreshBlock`. -/
theorem witness_ResetAgreesWithFreshBlock : ∃ s t u, Agree s t ∧ s ≠ t ∧ s.lastTs = t.lastTs ∧ step s = .next u := by
  refine ⟨ports (st .standard 4 0b11#2 0#3 3) 0x22#8 0xC0#8 9,
    { ports (st .standard 4 0b11#2 5#3 3) 0x22#8 0xC0#8 9 with respData := 7 }, _, ?_, by decide, rfl, rfl⟩
  constructor <;> decide

theorem witness_ResponseFollowsTheConsumer :
    (∃ s t, s.pins.rst = false ∧ step s = .next t ∧ s.params.order = .consumerFirst ∧
      (consumerInstr s).extracts = true) ∧
    ∃ s t, s.pins.rst = false ∧ step s = .next t ∧ s.params.order = .producerFirst ∧
      (consumerInstr s).extracts = false :=
  ⟨⟨ports (st .standard 4 0b01#2 0#3 3) 0x23#8 0x80#8, _, rfl, rfl, rfl, by decide⟩,
    ⟨producerFirst (ports (st .standard 4 0b01#2 0#3 3) 0x23#8 0x60#8), _, rfl, rfl, rfl, by decide⟩⟩

theorem witness_ResponseIgnoresSameCycleDecode : ∃ s t u, s.params.order = .consumerFirst ∧ s.pins.rst = false ∧
    step s = .next t ∧ step { s with pins := { s.pins with pOp := 0x23#8 } } = .next u :=
  ⟨ports (st .standard 4 0b01#2 0#3 3) 0x00#8 0x80#8, _, _, rfl, rfl, rfl, rfl⟩

/-- V-Y1, and a counter that has reached the divisor. -/
theorem witness_SameCycleExtractionAndDecode :
    Params.default.Legal ∧
    (∀ x ∈ [(3 : Int), 4, -4],
      (ports (st .standard 4 0b01#2 0#3 x) 0x23#8 0x80#8).Ready ∧
      (ports (st .standard 4 0b01#2 0#3 x) 0x23#8 0x80#8).mode = some .standard ∧
      (x + stdDelta 0b01#2 0b11#2).natAbs ≤ Params.default.cntMax) ∧
    0x80#8 = encode .xraw ∧ 0x23#8 = encode (.decode 0b11#2) ∧ Instr.xraw.extracts = true ∧
    (4 ≤ (4 : Int).natAbs ∧ (3 : Int).natAbs < 4 ∧ 4 ≤ ((3 : Int) + stdDelta 0b01#2 0b11#2).natAbs ∧
      ((-4 : Int) + stdDelta 0b01#2 0b11#2).natAbs < 4) := by decide

theorem witness_ExtractionsIgnoreDecoderState : ∃ t,
    Instr.xacc.extracts = true ∧ exec .xacc (st .buxtonFull 1 0b00#2 3#3 2) = .next t := ⟨_, rfl, rfl⟩

/-- Each clause's change happens. -/
theorem witness_RegisterWriters :
    regs (exec (.decode 0b01#2) (st .standard 4 0b00#2 0#3 0)) = some ⟨1, 0, 1, 0, false, 0⟩ ∧
    regs (exec (.decode 0b01#2) (st .buxtonFull 1 0b00#2 0#3 0)) = some ⟨0, 2, 0, 0, false, 0⟩ ∧
    regs (exec .xacc (ports (st .buxtonFull 1 0b00#2 0#3 1) 0x00#8 0xC0#8 7)) = some ⟨0, 0, 0, 7, true, 4⟩ := by decide

theorem witness_NoUpdateIsLost : ∃ s t, run 2 s = .next t ∧ s.rawCounter = (3 : Int) - 0 :=
  ⟨ports (st .standard 4 0b01#2 0#3 3) 0x23#8 0x80#8, _, rfl, rfl⟩

theorem witness_StepKeepsInvariant : ∃ s t, s.Inv ∧ step s = .next t := ⟨_, _, inv_standard, rfl⟩

theorem witness_BadConfigurationNeverRuns : ∃ s t, step s = .next t ∧ s.pins.rst = false := ⟨State.reset, _, rfl, rfl⟩

theorem witness_AdmittedRunsNeverStop : ∃ s : State, s.Inv ∧ s.Ready ∧ s.params.overflow = .saturate ∧
    s.schedule ≠ [] ∧ ∀ x ∈ s.pins :: s.schedule, x.rst = true → x.configOk s.params = true := by
  refine ⟨held (st .buxtonFull 1 0b00#2 6#3 0) 0b00#2 255 [Pins.idle], ?_, by decide, rfl, by decide, by decide⟩
  constructor <;> decide

end Sys2Proof.Tests
end

section
/-! PROOFS. What every operation leaves unchanged, and where a fault can come from (rules R10, R17). -/

namespace Sys2Proof.Machine

/-! The frame of an operation -/

/-- `t` has the parameters, the configuration and the inputs of `s`: what no operation writes (rules R13, R98; log 3). -/
structure SameConfig (s t : State) : Prop where
  params : t.params = s.params
  cfgMode : t.cfgMode = s.cfgMode
  cfgSpc : t.cfgSpc = s.cfgSpc
  pins : t.pins = s.pins
  schedule : t.schedule = s.schedule

theorem stdDecode_sameConfig {c : SignalCode} {s t : State} (h : stdDecode c s = .next t) : SameConfig s t := by
  rcases stdDecode_next h with ⟨-, rfl⟩ | ⟨-, -, rfl⟩ | ⟨-, -, rfl⟩ <;> exact ⟨rfl, rfl, rfl, rfl, rfl⟩

theorem bxDecode_sameConfig {table : List (List RomWord)} {c : SignalCode} {s t : State}
    (h : bxDecode table c s = .next t) : SameConfig s t := by
  obtain ⟨w, -, ⟨-, rfl⟩ | ⟨-, -, rfl⟩ | ⟨-, -, rfl⟩⟩ := bxDecode_next h <;> exact ⟨rfl, rfl, rfl, rfl, rfl⟩

theorem initOp_sameConfig (c : SignalCode) (s : State) : SameConfig s (initOp c s) := by
  unfold initOp
  split_ifs <;> exact ⟨rfl, rfl, rfl, rfl, rfl⟩

theorem resetOp_sameConfig (s : State) : SameConfig s (resetOp s) := by
  unfold resetOp
  split_ifs <;> exact ⟨rfl, rfl, rfl, rfl, rfl⟩

theorem xRaw_sameConfig (s : State) : SameConfig s (xRaw s).1 := by
  unfold xRaw
  split_ifs <;> exact ⟨rfl, rfl, rfl, rfl, rfl⟩

/-- The response registers are outside the configuration. -/
theorem SameConfig.setResponse {s t : State} (h : SameConfig s t) (v : Bool) (d : Int) :
    SameConfig s (t.setResponse v d) := ⟨h.params, h.cfgMode, h.cfgSpc, h.pins, h.schedule⟩

/-- An admitted operation that answers one state answers that state. -/
theorem eq_of_admitted_next {s t u : State} (h : admitted s (.next u) = .next t) : t = u :=
  (Host.Outcome.next.inj (admitted_eq_next.mp h).2).symm

/-- No operation writes the parameters, the configuration or the inputs. -/
theorem exec_sameConfig {i : Instr} {s t : State} (h : exec i s = .next t) : SameConfig s t := by
  cases i with
  | nop port =>
    cases port <;> rw [eq_of_admitted_next h] <;> exact ⟨rfl, rfl, rfl, rfl, rfl⟩
  | decode c =>
    obtain ⟨-, ⟨-, h⟩ | ⟨-, h⟩ | ⟨-, h⟩⟩ := execDecode_next h
    · exact stdDecode_sameConfig h
    · exact bxDecode_sameConfig h
    · exact bxDecode_sameConfig h
  | init c => rw [eq_of_admitted_next h]; exact (initOp_sameConfig c s).setResponse _ _
  | reset => rw [eq_of_admitted_next h]; exact (resetOp_sameConfig s).setResponse _ _
  | xraw => rw [eq_of_admitted_next h]; exact (xRaw_sameConfig s).setResponse _ _
  | xnorm => rw [eq_of_admitted_next h]; exact (xRaw_sameConfig s).setResponse _ _
  | xacc =>
    obtain ⟨-, ⟨-, rfl⟩ | ⟨-, n, v, -, rfl⟩⟩ := execXacc_next h <;> exact ⟨rfl, rfl, rfl, rfl, rfl⟩

/-! Where a fault comes from -/

theorem addCount_fault {d : Int} {s : State} {f : Fault} (h : addCount d s = .fault f) :
    s.params.overflow = .fault := by
  rcases addCount_cases d s with ⟨-, he⟩ | ⟨-, -, he⟩ | ⟨-, ho, -⟩
  · rw [he] at h; cases h
  · rw [he] at h; cases h
  · exact ho

theorem stdDecode_fault {c : SignalCode} {s : State} {f : Fault} (h : stdDecode c s = .fault f) :
    s.params.overflow = .fault := by
  unfold stdDecode at h
  split_ifs at h
  rcases andThen_eq_fault.mp h with h | ⟨u, -, h⟩
  · exact addCount_fault h
  · cases h

theorem bxDecode_fault {table : List (List RomWord)} {c : SignalCode} {s : State} {f : Fault}
    (h : bxDecode table c s = .fault f) : s.params.overflow = .fault := by
  unfold bxDecode at h
  split at h
  · cases h
  · split_ifs at h
    simpa using addCount_fault h

theorem decodeOp_fault {c : SignalCode} {s : State} {f : Fault} (h : decodeOp c s = .fault f) :
    s.params.overflow = .fault := by
  unfold decodeOp at h
  split at h
  · cases h
  · exact stdDecode_fault h
  · exact bxDecode_fault h
  · exact bxDecode_fault h

theorem admitted_next_ne_fault {s u : State} {f : Fault} : admitted s (.next u) ≠ .fault f :=
  fun h => nomatch (admitted_eq_fault.mp h).2

/-- The only operation that faults is DECODE, and only under the policy Fault (rule R17). -/
theorem exec_fault {i : Instr} {s : State} {f : Fault} (h : exec i s = .fault f) :
    s.params.overflow = .fault ∧ ∃ c, i = .decode c := by
  cases i with
  | nop port => cases port <;> exact absurd h admitted_next_ne_fault
  | decode c => exact ⟨decodeOp_fault (admitted_eq_fault.mp h).2, c, rfl⟩
  | init c => exact absurd h admitted_next_ne_fault
  | reset => exact absurd h admitted_next_ne_fault
  | xraw => exact absurd h admitted_next_ne_fault
  | xnorm => exact absurd h admitted_next_ne_fault
  | xacc => exact absurd h admitted_next_ne_fault

/-- The consumer port never issues DECODE (rule R43 (d)). -/
theorem portInstr_consumer_ne_decode (w : OpWord) (c : SignalCode) : portInstr .consumer w ≠ .decode c := by
  unfold portInstr portDecode consumerOnly
  split_ifs <;> simp

theorem exec_consumerInstr_ne_fault (s u : State) (f : Fault) : exec (consumerInstr s) u ≠ .fault f := by
  intro h
  obtain ⟨-, c, hc⟩ := exec_fault h
  exact portInstr_consumer_ne_decode _ c hc

/-- A step that faults does so in its producer operation: at once, or after the consumer operation has answered. -/
theorem step_fault {s : State} {f : Fault} (h : step s = .fault f) :
    s.pins.rst = false ∧
    (exec (producerInstr s) s = .fault f ∨
     ∃ u, exec (consumerInstr s) s = .next u ∧ exec (producerInstr s) u = .fault f) := by
  obtain he | ⟨u, -, hu⟩ := andThen_eq_fault.mp h
  · unfold edge at he
    split_ifs at he with hr
    refine ⟨Bool.eq_false_iff.mpr hr, ?_⟩
    unfold cycle at he
    cases ho : s.params.order <;> rw [ho] at he
    · obtain hf | hp := andThen_eq_fault.mp he
      · exact absurd hf (exec_consumerInstr_ne_fault s s f)
      · exact .inr hp
    · obtain hf | ⟨u, -, hc⟩ := andThen_eq_fault.mp he
      · exact .inl hf
      · exact absurd hc (exec_consumerInstr_ne_fault s u f)
  · cases hu

/-- Settles O25: the consumer operation keeps the policy and never faults, so the fault is the producer's DECODE. -/
theorem faultsOnlyUnderFaultPolicy : Obligations.FaultsOnlyUnderFaultPolicy := by
  intro s f h
  obtain ⟨hr, hp | ⟨u, hu, hp⟩⟩ := step_fault h
  · obtain ⟨ho, hc⟩ := exec_fault hp
    exact ⟨ho, hr, hc⟩
  · obtain ⟨ho, hc⟩ := exec_fault hp
    exact ⟨(exec_sameConfig hu).params ▸ ho, hr, hc⟩

end Sys2Proof.Machine
end

section
/-! PROOFS. The registers of rule R12: which operation writes which of them, and the invariant of rule R21, which reset
satisfies and every step keeps. -/

namespace Sys2Proof.Machine

/-! The reset state, and the saturating add -/

/-- Settles O1: the values stand in the definition of the reset state. -/
theorem resetRegisterValues : Obligations.ResetRegisterValues :=
  ⟨rfl, rfl, rfl, rfl, rfl, rfl, rfl, rfl, rfl, rfl, rfl, rfl⟩

/-- Settles O54: each clause is a comparison of the reset values. -/
theorem invariantHoldsAtReset : Obligations.InvariantHoldsAtReset := by
  refine ⟨?_, by decide⟩
  constructor <;> decide

/-- Settles O19: in range the sum, past it the policy's answer; a delta of at most one passes it only at a limit. -/
theorem saturatingAdd : Obligations.SaturatingAdd := by
  intro p v d hv hd
  refine ⟨fun h => if_pos (by omega), fun h ho => ?_, fun h ho => ?_, fun h => by omega⟩
  · rw [satAdd, if_neg (by omega), ho]
  · rw [satAdd, if_neg (by omega), ho]

/-! What an operation writes -/

theorem initOp_cases (c : SignalCode) (s : State) :
    s.mode = some .standard ∧ initOp c s = s.setPrevCode c ∨
    s.mode ≠ some .standard ∧ initOp c s = s.setFsmState 0#3 := by
  by_cases hm : s.mode = some .standard
  · exact .inl ⟨hm, if_pos hm⟩
  · exact .inr ⟨hm, if_neg hm⟩

theorem resetOp_cases (s : State) :
    s.mode = some .standard ∧ resetOp s = s.setCounter 0 ∨
    s.mode ≠ some .standard ∧ resetOp s = (s.setCounter 0).setFsmState 0#3 := by
  by_cases hm : s.mode = some .standard
  · exact .inl ⟨hm, if_pos hm⟩
  · exact .inr ⟨hm, if_neg hm⟩

theorem xRaw_cases (s : State) :
    s.cfgSpc ≤ s.rawCounter.natAbs ∧ xRaw s = (s.setCounter 0, tdiv s.rawCounter s.cfgSpc) ∨
    s.rawCounter.natAbs < s.cfgSpc ∧ xRaw s = (s, 0) := by
  rcases Nat.lt_or_ge s.rawCounter.natAbs s.cfgSpc with hf | hf
  · exact .inr ⟨hf, xRaw_of_not_fires hf⟩
  · exact .inl ⟨hf, xRaw_of_fires hf⟩

/-- The extraction writes no register but the counter. -/
theorem xRaw_eq_setCounter (s : State) : ∃ n, (xRaw s).1 = s.setCounter n := by
  rcases xRaw_cases s with ⟨-, he⟩ | ⟨-, he⟩ <;> rw [he]
  · exact ⟨0, rfl⟩
  · exact ⟨s.rawCounter, rfl⟩

theorem stdDecode_writes {c : SignalCode} {s t : State} (h : stdDecode c s = .next t) :
    ∃ p n, t = { s with prevCode := p, rawCounter := n } ∧ (n - s.rawCounter).natAbs ≤ 1 := by
  rcases stdDecode_next h with ⟨-, rfl⟩ | ⟨-, -, rfl⟩ | ⟨-, -, rfl⟩
  · exact ⟨_, _, rfl, by simp⟩
  · exact ⟨_, _, rfl, by simpa using stdDelta_natAbs_le s.prevCode c⟩
  · exact ⟨_, _, rfl, by simp⟩

theorem bxDecode_writes {table : List (List RomWord)} {c : SignalCode} {s t : State}
    (h : bxDecode table c s = .next t) :
    ∃ r n, t = { s with fsmState := r, rawCounter := n } ∧ (n - s.rawCounter).natAbs ≤ 1 := by
  obtain ⟨w, -, ⟨-, rfl⟩ | ⟨-, -, rfl⟩ | ⟨-, -, rfl⟩⟩ := bxDecode_next h
  · exact ⟨_, _, rfl, by simp⟩
  · exact ⟨_, _, rfl, by simpa using romDelta_natAbs_le w⟩
  · exact ⟨_, _, rfl, by simp⟩

/-- DECODE writes the counter, by one step at most, and the one decoder register of its mode. -/
theorem execDecode_writes {c : SignalCode} {s t : State} (h : exec (.decode c) s = .next t) :
    (s.mode = some .standard ∧
      ∃ p n, t = { s with prevCode := p, rawCounter := n } ∧ (n - s.rawCounter).natAbs ≤ 1) ∨
    (s.mode ≠ some .standard ∧
      ∃ r n, t = { s with fsmState := r, rawCounter := n } ∧ (n - s.rawCounter).natAbs ≤ 1) := by
  obtain ⟨-, ⟨hm, h⟩ | ⟨hm, h⟩ | ⟨hm, h⟩⟩ := execDecode_next h
  · exact .inl ⟨hm, stdDecode_writes h⟩
  · exact .inr ⟨by simp [hm], bxDecode_writes h⟩
  · exact .inr ⟨by simp [hm], bxDecode_writes h⟩

/-- Settles O24: the engine of either kind of mode writes its own decoder register and the counter alone. -/
theorem decodeFrame : Obligations.DecodeFrame := by
  intro s t c h
  rcases execDecode_writes h with ⟨hm, p, n, rfl, hn⟩ | ⟨hm, r, n, rfl, hn⟩
  · exact ⟨rfl, rfl, rfl, rfl, rfl, rfl, rfl, rfl, rfl, fun h => absurd hm h, fun _ => rfl, hn⟩
  · exact ⟨rfl, rfl, rfl, rfl, rfl, rfl, rfl, rfl, rfl, fun _ => rfl, fun h => absurd h hm, hn⟩

/-- Settles O52: operation by operation, from what each of them writes. -/
theorem registerWriters : Obligations.RegisterWriters := by
  intro s t i h
  obtain ⟨hparams, hmode, hspc, hpins, hschedule⟩ := exec_sameConfig h
  refine ⟨hmode, hspc, hparams, hpins, hschedule, ?_⟩
  cases i with
  | nop port => cases port <;> rw [eq_of_admitted_next h] <;> simp [Instr.port, Instr.extracts]
  | decode c =>
    rcases execDecode_writes h with ⟨hm, p, n, rfl, -⟩ | ⟨hm, r, n, rfl, -⟩ <;> simp [Instr.port, hm]
  | init c =>
    rw [eq_of_admitted_next h]
    rcases initOp_cases c s with ⟨hm, he⟩ | ⟨hm, he⟩ <;> simp [he, hm, Instr.port, Instr.extracts]
  | reset =>
    rw [eq_of_admitted_next h]
    rcases resetOp_cases s with ⟨hm, he⟩ | ⟨hm, he⟩ <;> simp [he, hm, Instr.port, Instr.extracts]
  | xraw =>
    obtain ⟨n, he⟩ := xRaw_eq_setCounter s
    rw [eq_of_admitted_next h]
    simp [he, Instr.port, Instr.extracts]
  | xnorm =>
    obtain ⟨n, he⟩ := xRaw_eq_setCounter s
    rw [eq_of_admitted_next h]
    simp [xNorm, he, Instr.port, Instr.extracts]
  | xacc =>
    obtain ⟨-, ⟨-, rfl⟩ | ⟨-, n, v, -, rfl⟩⟩ := execXacc_next h <;> simp [Instr.port, Instr.extracts]

/-! What an extraction reads -/

/-- The extraction commutes with writing the decoder registers. -/
theorem xRaw_setDecoder (s : State) (c : SignalCode) (r : FsmRow) :
    xRaw ((s.setPrevCode c).setFsmState r) = (((xRaw s).1.setPrevCode c).setFsmState r, (xRaw s).2) := by
  rcases xRaw_cases s with ⟨hf, he⟩ | ⟨hf, he⟩ <;> rw [he]
  · exact xRaw_of_fires hf
  · exact xRaw_of_not_fires hf

theorem scaledResult_setDecoder (v : Int) (s : State) (c : SignalCode) (r : FsmRow) :
    scaledResult v ((s.setPrevCode c).setFsmState r) =
      (((scaledResult v s).1.setPrevCode c).setFsmState r, (scaledResult v s).2) := by
  by_cases hv : fitsResp s.params v
  · rw [show scaledResult v s = (s, v) from if_pos hv]
    exact if_pos hv
  · rw [show scaledResult v s = (s.draw, _) from if_neg hv]
    exact if_neg hv

theorem xAcc_setDecoder (t : Nat) (s : State) (c : SignalCode) (r : FsmRow) :
    xAcc t ((s.setPrevCode c).setFsmState r) = (((xAcc t s).1.setPrevCode c).setFsmState r, (xAcc t s).2) := by
  unfold xAcc
  rw [xRaw_setDecoder]
  split_ifs with h0
  · rfl
  · exact scaledResult_setDecoder _ ((xRaw s).1.setLastTs t) c r

/-- Settles O51: each extraction is admitted by the configuration alone and commutes with writing the decoder
registers. -/
theorem extractionsIgnoreDecoderState : Obligations.ExtractionsIgnoreDecoderState := by
  intro s t i c r hi h
  have hr : ((s.setPrevCode c).setFsmState r).Ready := show s.Ready from exec_next_ready h
  change exec i ((s.setPrevCode c).setFsmState r) = _
  cases i with
  | nop port => cases hi
  | decode d => cases hi
  | init d => cases hi
  | reset => cases hi
  | xraw =>
    rw [eq_of_admitted_next h, exec_xraw, admitted_of_ready hr, xRaw_setDecoder]
    rfl
  | xnorm =>
    rw [eq_of_admitted_next h, exec_xnorm, admitted_of_ready hr, xRaw_setDecoder]
    rfl
  | xacc =>
    rw [eq_of_admitted_next h, exec_xacc, admitted_of_ready hr, xAcc_setDecoder]
    rfl

/-! The configuration a cycle runs in -/

theorem SameConfig.mode {s t : State} (h : SameConfig s t) : t.mode = s.mode := congrArg Mode.ofCode h.cfgMode

theorem SameConfig.ready {s t : State} (h : SameConfig s t) (hs : s.Ready) : t.Ready := by
  rwa [State.Ready, State.BadConfig, h.mode, h.cfgSpc]

/-- An operation answers only a ready state: the configuration is the one it was admitted with. -/
theorem exec_ready {i : Instr} {s t : State} (h : exec i s = .next t) : t.Ready :=
  (exec_sameConfig h).ready (exec_next_ready h)

/-- Settles O56: in either order both operations of the cycle run on a ready state and answer one. -/
theorem badConfigurationNeverRuns : Obligations.BadConfigurationNeverRuns := by
  intro s t h hr
  rcases step_next h with ⟨hr', -⟩ | ⟨-, -, u, v, hu, hv, rfl⟩ | ⟨-, -, u, v, hu, hv, rfl⟩
  · exact absurd (hr.symm.trans hr') (by decide)
  · exact ⟨exec_next_ready hu, show v.Ready from exec_ready hv⟩
  · exact ⟨exec_next_ready hu, show v.Ready from exec_ready hv⟩

/-! The invariant under each write of a register -/

theorem State.Inv.setCounter {s : State} (h : s.Inv) {n : Int} (hn : n.natAbs ≤ s.params.cntMax) :
    (s.setCounter n).Inv := { h with counter := hn }

theorem State.Inv.setPrevCode {s : State} (h : s.Inv) (hm : s.mode = some .standard) (c : SignalCode) :
    (s.setPrevCode c).Inv := { h with prev := fun hn => absurd hm hn }

theorem State.Inv.setFsmState {s : State} (h : s.Inv) {r : FsmRow} (hr : r.toNat < rowCount s.mode) :
    (s.setFsmState r).Inv := { h with row := hr }

theorem State.Inv.setResponse {s : State} (h : s.Inv) (v : Bool) {d : Int} (hd : fitsResp s.params d) :
    (s.setResponse v d).Inv := { h with response := hd }

theorem State.Inv.advance {s : State} (h : s.Inv) : s.advance.Inv := { h with }

/-! The invariant under each operation -/

theorem rowCount_pos (m : Option Mode) : 0 < rowCount m := by
  unfold rowCount
  split <;> decide

/-- The response is two bits wider than the counter, so what the counter can hold fits it (rule R74). -/
theorem fitsResp_of_natAbs_le {p : Params} {v : Int} (h : v.natAbs ≤ p.cntMax) : fitsResp p v := by
  have hpow : 2 ^ (p.counterW - 1) ≤ 2 ^ (p.respW - 1) :=
    Nat.pow_le_pow_right (by decide) (by unfold Params.respW; omega)
  have hpos : 0 < 2 ^ (p.counterW - 1) := Nat.two_pow_pos _
  have hlt : v.natAbs < 2 ^ (p.respW - 1) := by unfold Params.cntMax at h; omega
  have hlt : (v.natAbs : Int) < 2 ^ (p.respW - 1) := by exact_mod_cast hlt
  constructor <;> omega

/-- The cell a row of a mode's table selects leads to a row of the same table (rule R48). -/
theorem romNext_lt_rowCount {m : Mode} {r : FsmRow} {c : SignalCode} {w : RomWord}
    (hr : r.toNat < rowCount (some m)) (hw : romCell (romOf m) r c = some w) :
    (romNext w).toNat < rowCount (some m) := by
  cases m with
  | standard => cases hw
  | buxtonFull =>
    obtain ⟨w', hw', hn⟩ := romCell_full_of_lt r c hr
    cases hw.symm.trans hw'
    exact hn
  | buxtonHalf =>
    obtain ⟨w', hw', hn⟩ := romCell_half_of_lt r c hr
    cases hw.symm.trans hw'
    exact hn

theorem stdDecode_inv {c : SignalCode} {s t : State} (h : s.Inv) (hm : s.mode = some .standard)
    (ht : stdDecode c s = .next t) : t.Inv := by
  rcases stdDecode_next ht with ⟨-, rfl⟩ | ⟨-, hn, rfl⟩ | ⟨-, -, rfl⟩
  · exact h
  · exact (h.setCounter hn).setPrevCode hm c
  · exact h.setPrevCode hm c

theorem bxDecode_inv {m : Mode} {c : SignalCode} {s t : State} (h : s.Inv) (hm : s.mode = some m)
    (ht : bxDecode (romOf m) c s = .next t) : t.Inv := by
  obtain ⟨w, hw, hcount⟩ := bxDecode_next ht
  have hmove : (s.setFsmState (romNext w)).Inv :=
    h.setFsmState (hm ▸ romNext_lt_rowCount (hm ▸ h.row) hw)
  rcases hcount with ⟨-, rfl⟩ | ⟨-, hn, rfl⟩ | ⟨-, -, rfl⟩
  · exact hmove
  · exact hmove.setCounter hn
  · exact hmove

theorem initOp_inv {s : State} (h : s.Inv) (c : SignalCode) : (initOp c s).Inv := by
  rcases initOp_cases c s with ⟨hm, he⟩ | ⟨-, he⟩ <;> rw [he]
  · exact h.setPrevCode hm c
  · exact h.setFsmState (rowCount_pos _)

theorem resetOp_inv {s : State} (h : s.Inv) : (resetOp s).Inv := by
  have hclear : (s.setCounter 0).Inv := h.setCounter (Nat.zero_le _)
  rcases resetOp_cases s with ⟨-, he⟩ | ⟨-, he⟩ <;> rw [he]
  · exact hclear
  · exact hclear.setFsmState (rowCount_pos _)

theorem xRaw_inv {s : State} (h : s.Inv) : (xRaw s).1.Inv := by
  rcases xRaw_cases s with ⟨-, he⟩ | ⟨-, he⟩ <;> rw [he]
  · exact h.setCounter (Nat.zero_le _)
  · exact h

theorem xRaw_natAbs_le (s : State) : (xRaw s).2.natAbs ≤ s.rawCounter.natAbs := by
  rcases xRaw_cases s with ⟨-, he⟩ | ⟨-, he⟩ <;> rw [he]
  · exact tdiv_natAbs_le _ _
  · exact Nat.zero_le _

/-- A result no larger than the quotient fits the response. -/
theorem xRaw_setResponse_inv {s : State} (h : s.Inv) {d : Int} (hd : d.natAbs ≤ (xRaw s).2.natAbs) :
    ((xRaw s).1.setResponse true d).Inv := by
  refine (xRaw_inv h).setResponse true (fitsResp_of_natAbs_le ?_)
  rw [(xRaw_sameConfig s).params]
  exact hd.trans ((xRaw_natAbs_le s).trans h.counter)

theorem natAbs_sign_le (a : Int) : a.sign.natAbs ≤ a.natAbs := by
  rw [Int.natAbs_sign]
  split_ifs <;> omega

theorem exec_inv {i : Instr} {s t : State} (h : s.Inv) (ht : exec i s = .next t) : t.Inv := by
  cases i with
  | nop port =>
    cases port <;> rw [eq_of_admitted_next ht]
    · exact h
    · exact h.setResponse false h.response
  | decode c =>
    obtain ⟨-, ⟨hm, ht⟩ | ⟨hm, ht⟩ | ⟨hm, ht⟩⟩ := execDecode_next ht
    · exact stdDecode_inv h hm ht
    · exact bxDecode_inv h hm ht
    · exact bxDecode_inv h hm ht
  | init c =>
    rw [eq_of_admitted_next ht]
    exact (initOp_inv h c).setResponse false (initOp_inv h c).response
  | reset =>
    rw [eq_of_admitted_next ht]
    exact (resetOp_inv h).setResponse false (resetOp_inv h).response
  | xraw =>
    rw [eq_of_admitted_next ht]
    exact xRaw_setResponse_inv h le_rfl
  | xnorm =>
    rw [eq_of_admitted_next ht]
    exact xRaw_setResponse_inv h (natAbs_sign_le _)
  | xacc =>
    obtain ⟨-, ⟨-, rfl⟩ | ⟨-, n, v, hv, rfl⟩⟩ := execXacc_next ht
    · exact h.setResponse true (fitsResp_of_natAbs_le (Nat.zero_le _))
    · exact { h with counter := Nat.zero_le _, time := Nat.mod_lt _ (Nat.two_pow_pos _), response := hv }

/-! The invariant under construction -/

theorem State.mode_eq_standard_iff (s : State) : s.mode = some .standard ↔ s.cfgMode = Mode.standard.code := by
  unfold State.mode
  generalize s.cfgMode = m
  revert m
  decide

/-- Construction clears every register that the invariant bounds and samples the divisor in its width (rule R90). -/
theorem construct_inv {s : State} (h : s.params.Legal) : (construct s).Inv where
  legal := h
  row := rowCount_pos _
  prev _ := rfl
  divisor hm := if_neg fun he => hm ((State.mode_eq_standard_iff _).mpr he)
  divisorFits := by
    rw [construct_cfgSpc, construct_params]
    split_ifs
    · exact Nat.mod_lt _ (Nat.two_pow_pos _)
    · obtain ⟨-, hw, -⟩ := h
      exact Nat.one_lt_two_pow (Nat.one_le_iff_ne_zero.mp hw)
  counter := Nat.zero_le _
  time := Nat.two_pow_pos _
  response := fitsResp_of_natAbs_le (Nat.zero_le _)

/-- Settles O55: a construction establishes the invariant, and in either order both operations of a cycle keep it. -/
theorem stepKeepsInvariant : Obligations.StepKeepsInvariant := by
  intro s t h ht
  rcases step_next ht with ⟨-, rfl⟩ | ⟨-, -, u, v, hu, hv, rfl⟩ | ⟨-, -, u, v, hu, hv, rfl⟩
  · exact (construct_inv h.legal).advance
  · exact (exec_inv (exec_inv h hu) hv).advance
  · exact (exec_inv (exec_inv h hu) hv).advance

end Sys2Proof.Machine
end

section
/-! PROOFS. The cycle (rules R34, R35): the two operations of a step in the block's order, the rule's own `Cycle`, what
the two ports see of each other, the ledger of rule R35, and the table accesses of rule R29. -/

namespace Sys2Proof.Machine

/-! The ledger of rule R35 -/

/-- Below, at or above the threshold: what an extraction takes out of the counter. -/
theorem xRaw_rawCounter (s : State) :
    (xRaw s).1.rawCounter = s.rawCounter - if s.Fires then s.rawCounter else 0 := by
  rcases xRaw_cases s with ⟨hf, he⟩ | ⟨hf, he⟩ <;> rw [he]
  · rw [if_pos hf]
    exact (Int.sub_self _).symm
  · rw [if_neg (Nat.not_le.mpr hf)]
    exact (Int.sub_zero _).symm

theorem tableDelta_of_standard {s : State} (hm : s.mode = some .standard) (c : SignalCode) :
    tableDelta c s = stdDelta s.prevCode c := by simp [tableDelta, hm]

/-- In a Buxton mode the delta is that of the cell the state and the code select. -/
theorem tableDelta_of_romCell {s : State} {m : Mode} {c : SignalCode} {w : RomWord} (hm : s.mode = some m)
    (hw : romCell (romOf m) s.fsmState c = some w) : tableDelta c s = romDelta w := by
  cases m with
  | standard => cases hw
  | buxtonFull => simp [tableDelta, hm, show romCell fullRomTable s.fsmState c = some w from hw]
  | buxtonHalf => simp [tableDelta, hm, show romCell halfRomTable s.fsmState c = some w from hw]

theorem stdDelta_self (c : SignalCode) : stdDelta c c = 0 := by revert c; decide

theorem added_decode_of_le {s : State} {c : SignalCode}
    (h : (s.rawCounter + tableDelta c s).natAbs ≤ s.params.cntMax) : added s (.decode c) = tableDelta c s := if_pos h

theorem added_decode_of_lt {s : State} {c : SignalCode}
    (h : s.params.cntMax < (s.rawCounter + tableDelta c s).natAbs) : added s (.decode c) = 0 :=
  if_neg (Nat.not_le.mpr h)

theorem added_decode_of_tableDelta_eq_zero {s : State} {c : SignalCode} (h : tableDelta c s = 0) :
    added s (.decode c) = 0 := by simp [added, h]

theorem stdDecode_rawCounter {c : SignalCode} {s t : State} (hm : s.mode = some .standard)
    (h : stdDecode c s = .next t) : t.rawCounter = s.rawCounter + added s (.decode c) := by
  have hd := tableDelta_of_standard hm c
  rcases stdDecode_next h with ⟨hc, rfl⟩ | ⟨-, hn, rfl⟩ | ⟨-, hn, rfl⟩
  · rw [added_decode_of_tableDelta_eq_zero (by rw [hd, hc, stdDelta_self]), Int.add_zero]
  · rw [added_decode_of_le (hd ▸ hn), hd]
    rfl
  · rw [added_decode_of_lt (hd ▸ hn), Int.add_zero]
    rfl

theorem bxDecode_rawCounter {m : Mode} {c : SignalCode} {s t : State} (hm : s.mode = some m)
    (h : bxDecode (romOf m) c s = .next t) : t.rawCounter = s.rawCounter + added s (.decode c) := by
  obtain ⟨w, hw, hcount⟩ := bxDecode_next h
  have hd := tableDelta_of_romCell hm hw
  rcases hcount with ⟨h0, rfl⟩ | ⟨-, hn, rfl⟩ | ⟨-, hn, rfl⟩
  · rw [added_decode_of_tableDelta_eq_zero (hd.trans h0), Int.add_zero]
    rfl
  · rw [added_decode_of_le (hd ▸ hn), hd]
    rfl
  · rw [added_decode_of_lt (hd ▸ hn), Int.add_zero]
    rfl

/-- What an operation does to the counter is what it enters in the ledger. -/
theorem exec_rawCounter {i : Instr} {s t : State} (h : exec i s = .next t) :
    t.rawCounter = s.rawCounter + added s i - cleared s i := by
  cases i with
  | nop port => cases port <;> rw [eq_of_admitted_next h] <;> simp [added, cleared]
  | decode c =>
    rw [show cleared s (.decode c) = 0 from rfl, Int.sub_zero]
    obtain ⟨-, ⟨hm, h⟩ | ⟨hm, h⟩ | ⟨hm, h⟩⟩ := execDecode_next h
    · exact stdDecode_rawCounter hm h
    · exact bxDecode_rawCounter hm h
    · exact bxDecode_rawCounter hm h
  | init c =>
    rw [eq_of_admitted_next h]
    rcases initOp_cases c s with ⟨-, he⟩ | ⟨-, he⟩ <;> simp [he, added, cleared]
  | reset =>
    rw [eq_of_admitted_next h]
    rcases resetOp_cases s with ⟨-, he⟩ | ⟨-, he⟩ <;> simp [he, added, cleared]
  | xraw =>
    rw [eq_of_admitted_next h]
    simpa [added, cleared] using xRaw_rawCounter s
  | xnorm =>
    rw [eq_of_admitted_next h]
    simpa [xNorm, added, cleared] using xRaw_rawCounter s
  | xacc =>
    obtain ⟨-, ⟨hf, rfl⟩ | ⟨hf, n, v, -, rfl⟩⟩ := execXacc_next h
    · simp [added, cleared, Nat.not_le.mpr hf]
    · simp [added, cleared, hf]

/-- Rule R35 (a) of one ledger and one state: the counter is `A - Z`. -/
def Ledger.Balances (l : Ledger) (s : State) : Prop := s.rawCounter = l.a - l.z

theorem Ledger.Balances.two {l : Ledger} {s u v : State} {i j : Instr} (h : l.Balances s)
    (hu : exec i s = .next u) (hv : exec j u = .next v) : (l.two s i j).Balances v := by
  have hi := exec_rawCounter hu
  have hj := exec_rawCounter hv
  simp only [Ledger.Balances, Ledger.two, hu] at h ⊢
  omega

theorem Ledger.Balances.edge {l : Ledger} {s t : State} (h : l.Balances s) (ht : step s = .next t) :
    (l.edge s).Balances t := by
  rcases step_next ht with ⟨hr, rfl⟩ | ⟨hr, ho, u, v, hu, hv, rfl⟩ | ⟨hr, ho, u, v, hu, hv, rfl⟩ <;>
    simp only [Ledger.edge, hr, reduceIte, Bool.false_eq_true]
  · rfl
  · rw [ho]
    exact Ledger.Balances.two (v := v) h hu hv
  · rw [ho]
    exact Ledger.Balances.two (v := v) h hu hv

theorem Ledger.Balances.run {k : Nat} {l : Ledger} {s t : State} (h : l.Balances s)
    (ht : Machine.run k s = .next t) : (Ledger.run k l s).Balances t := by
  induction k generalizing l s with
  | zero => exact Host.Outcome.next.inj ht ▸ h
  | succ k ih =>
    obtain ⟨u, hu, ht⟩ := andThen_eq_next.mp ht
    rw [Ledger.run, hu]
    exact ih (h.edge hu) ht

/-- Settles O53: every operation enters in the ledger what it does to the counter, so every edge keeps the balance. -/
theorem noUpdateIsLost : Obligations.NoUpdateIsLost :=
  fun _ _ _ _ ht h => Ledger.Balances.run h ht

/-! The operations a step runs -/

theorem andThen_congr {r : Result} {f g : State → Result} (h : ∀ t, r = .next t → f t = g t) :
    andThen r f = andThen r g := by
  cases r with
  | next t => exact h t rfl
  | fault e => rfl
  | refused e => rfl

/-- A cycle with the consumer first. -/
theorem step_of_consumerFirst {s : State} (hr : s.pins.rst = false) (ho : s.params.order = .consumerFirst) :
    step s =
      andThen (exec (consumerInstr s) s) fun t => andThen (exec (producerInstr s) t) fun u => .next u.advance := by
  rw [step, edge, hr, if_neg (by decide), cycle, ho]
  exact andThen_assoc _ _ _

/-- A cycle with the producer first. -/
theorem step_of_producerFirst {s : State} (hr : s.pins.rst = false) (ho : s.params.order = .producerFirst) :
    step s =
      andThen (exec (producerInstr s) s) fun t => andThen (exec (consumerInstr s) t) fun u => .next u.advance := by
  rw [step, edge, hr, if_neg (by decide), cycle, ho]
  exact andThen_assoc _ _ _

theorem portInstr_of_ok {port : Port} {w : OpWord} {i : Instr} (h : portDecode port w = .ok i) :
    portInstr port w = i := by rw [portInstr, h]

/-- Settles O12: the words decode, so the ports perform these two operations. -/
theorem stepRunsTheDecodedOperations : Obligations.StepRunsTheDecodedOperations := by
  intro s ci pi hr hc hp
  have hci : consumerInstr s = ci := portInstr_of_ok hc
  have hpi : producerInstr s = pi := portInstr_of_ok hp
  constructor <;> intro ho
  · rw [step_of_consumerFirst hr ho, hci, hpi]
  · rw [step_of_producerFirst hr ho, hci, hpi]

/-! Reading the ports -/

/-- An operation's word is read as that operation on its port (rule R41). -/
theorem portInstr_encode {port : Port} {i : Instr} (h : i.legalOn port = true) : portInstr port (encode i) = i := by
  cases i with
  | nop q => cases eq_of_beq h; cases port <;> decide
  | decode c => cases eq_of_beq h; revert c; decide
  | init c => cases eq_of_beq h; revert c; decide
  | reset => cases eq_of_beq h; decide
  | xraw => cases eq_of_beq h; decide
  | xnorm => cases eq_of_beq h; decide
  | xacc => cases eq_of_beq h; decide

theorem portInstr_idle (port : Port) : portInstr port 0x00#8 = .nop port := by cases port <;> decide

/-- A port performs only operations that are legal on it (rule R43 (d), (e)). -/
theorem portInstr_legalOn (port : Port) (w : OpWord) : (portInstr port w).legalOn port = true := by
  unfold portInstr portDecode consumerOnly
  cases port <;> split_ifs <;> rfl

/-- What a port performs is the answer of rule R42's `PortDecode`, NOP for its NONE. -/
theorem portInstr_eq_rulePortDecode (port : Port) (w : OpWord) :
    portInstr port w = (rulePortDecode w port).getD (.nop port) := by
  unfold portInstr portDecode consumerOnly rulePortDecode OpWord.rsv OpWord.op OpWord.code
  by_cases hrsv : w.extractLsb' 2 3 = 0b000#3
  · rw [if_neg (not_not_intro hrsv), if_neg (not_not_intro hrsv)]
    generalize w.extractLsb' 5 3 = op
    generalize w.extractLsb' 0 2 = code
    clear hrsv
    revert op code
    cases port <;> decide
  · rw [if_pos hrsv, if_pos hrsv]
    rfl

theorem eq_of_legalOn_producer {i : Instr} (h : i.legalOn .producer = true) :
    i = .nop .producer ∨ ∃ c, i = .decode c := by
  cases i with
  | nop port => cases eq_of_beq h; exact .inl rfl
  | decode c => exact .inr ⟨c, rfl⟩
  | init c => cases h
  | reset => cases h
  | xraw => cases h
  | xnorm => cases h
  | xacc => cases h

theorem consumerInstr_legalOn (s : State) : (consumerInstr s).legalOn .consumer = true := portInstr_legalOn _ _

theorem producerInstr_legalOn (s : State) : (producerInstr s).legalOn .producer = true := portInstr_legalOn _ _

/-! DECODE and the response -/

theorem addCount_setResponse (d : Int) (s : State) (v : Bool) (x : Int) :
    addCount d (s.setResponse v x) = andThen (addCount d s) fun t => .next (t.setResponse v x) := by
  simp only [addCount, State.setResponse_params, State.setResponse_rawCounter]
  cases satAdd s.params s.rawCounter d <;> rfl

theorem stdDecode_setResponse (c : SignalCode) (s : State) (v : Bool) (x : Int) :
    stdDecode c (s.setResponse v x) = andThen (stdDecode c s) fun t => .next (t.setResponse v x) := by
  simp only [stdDecode, State.setResponse_prevCode, addCount_setResponse]
  split_ifs
  · rfl
  · simp only [andThen_assoc, andThen_next]
    rfl

theorem bxDecode_setResponse (table : List (List RomWord)) (c : SignalCode) (s : State) (v : Bool) (x : Int) :
    bxDecode table c (s.setResponse v x) = andThen (bxDecode table c s) fun t => .next (t.setResponse v x) := by
  unfold bxDecode
  rw [State.setResponse_fsmState]
  cases romCell table s.fsmState c with
  | none => rfl
  | some w =>
    dsimp only
    split_ifs
    · rfl
    · exact addCount_setResponse _ (s.setFsmState (romNext w)) v x

/-- DECODE neither reads nor writes the response registers. -/
theorem decodeOp_setResponse (c : SignalCode) (s : State) (v : Bool) (x : Int) :
    decodeOp c (s.setResponse v x) = andThen (decodeOp c s) fun t => .next (t.setResponse v x) := by
  unfold decodeOp
  rw [State.setResponse_mode]
  cases s.mode with
  | none => rfl
  | some m =>
    cases m with
    | standard => exact stdDecode_setResponse c s v x
    | buxtonFull => exact bxDecode_setResponse fullRomTable c s v x
    | buxtonHalf => exact bxDecode_setResponse halfRomTable c s v x

theorem exec_of_not_ready {s : State} (h : ¬ s.Ready) (i : Instr) : exec i s = .refused .badConfiguration := by
  have hb : s.BadConfig := not_not.mp h
  cases i with
  | nop port => cases port <;> exact admitted_of_bad hb _
  | decode c => exact admitted_of_bad hb _
  | init c => exact admitted_of_bad hb _
  | reset => exact admitted_of_bad hb _
  | xraw => exact admitted_of_bad hb _
  | xnorm => exact admitted_of_bad hb _
  | xacc => exact admitted_of_bad hb _

/-- No producer operation reads or writes the response registers. -/
theorem exec_setResponse_of_producer {i : Instr} (hi : i.legalOn .producer = true) (s : State) (v : Bool) (x : Int) :
    exec i (s.setResponse v x) = andThen (exec i s) fun t => .next (t.setResponse v x) := by
  by_cases hr : s.Ready
  · have hr' : (s.setResponse v x).Ready := hr
    rcases eq_of_legalOn_producer hi with rfl | ⟨c, rfl⟩
    · rw [exec_nop_producer, exec_nop_producer, admitted_of_ready hr', admitted_of_ready hr, andThen_next]
    · rw [exec_decode, exec_decode, admitted_of_ready hr', admitted_of_ready hr, decodeOp_setResponse]
  · have hr' : ¬ (s.setResponse v x).Ready := hr
    rw [exec_of_not_ready hr', exec_of_not_ready hr, andThen_refused]

/-- A producer operation leaves the response registers and `lastTs` as they were. -/
theorem exec_producer_frame {i : Instr} {s t : State} (hi : i.legalOn .producer = true) (h : exec i s = .next t) :
    t.respValid = s.respValid ∧ t.respData = s.respData ∧ t.lastTs = s.lastTs := by
  rcases eq_of_legalOn_producer hi with rfl | ⟨c, rfl⟩
  · rw [eq_of_admitted_next h]
    exact ⟨rfl, rfl, rfl⟩
  · rcases execDecode_writes h with ⟨-, p, n, rfl, -⟩ | ⟨-, r, n, rfl, -⟩ <;> exact ⟨rfl, rfl, rfl⟩

/-! An operation alone on its port -/

theorem exec_nop_producer_of_ready {s : State} (h : s.Ready) : exec (.nop .producer) s = .next s :=
  admitted_of_ready h _

theorem exec_nop_consumer_of_ready {s : State} (h : s.Ready) :
    exec (.nop .consumer) s = .next (s.setResponse false s.respData) := admitted_of_ready h _

/-- A consumer operation beside NOP. -/
theorem step_of_producer_nop {s : State} (hr : s.pins.rst = false) (hp : producerInstr s = .nop .producer) :
    step s = andThen (exec (consumerInstr s) s) fun t => .next t.advance := by
  cases ho : s.params.order with
  | consumerFirst =>
    rw [step_of_consumerFirst hr ho, hp]
    refine andThen_congr fun t ht => ?_
    rw [exec_nop_producer_of_ready (exec_ready ht), andThen_next]
  | producerFirst =>
    rw [step_of_producerFirst hr ho, hp]
    by_cases hs : s.Ready
    · rw [exec_nop_producer_of_ready hs, andThen_next]
    · rw [exec_of_not_ready hs, exec_of_not_ready hs, andThen_refused, andThen_refused]

/-- A producer operation beside NOP: the response is held and no longer valid. -/
theorem step_of_consumer_nop {s : State} (hr : s.pins.rst = false) (hc : consumerInstr s = .nop .consumer) :
    step s = andThen (exec (producerInstr s) s) fun t => .next (t.setResponse false t.respData).advance := by
  have hlegal := producerInstr_legalOn s
  cases ho : s.params.order with
  | consumerFirst =>
    rw [step_of_consumerFirst hr ho, hc]
    by_cases hs : s.Ready
    · rw [exec_nop_consumer_of_ready hs, andThen_next, exec_setResponse_of_producer hlegal, andThen_assoc]
      refine andThen_congr fun t ht => ?_
      obtain ⟨-, hdata, -⟩ := exec_producer_frame hlegal ht
      rw [andThen_next, hdata]
    · rw [exec_of_not_ready hs, exec_of_not_ready hs, andThen_refused, andThen_refused]
  | producerFirst =>
    rw [step_of_producerFirst hr ho, hc]
    refine andThen_congr fun t ht => ?_
    rw [exec_nop_consumer_of_ready (exec_ready ht), andThen_next]

/-- Settles O13: the word 0x00 is NOP on either port, which changes at most the validity of the response. -/
theorem loneOperationIsOneCycle : Obligations.LoneOperationIsOneCycle := by
  constructor
  · intro s i hr hi hc hp
    have hci : consumerInstr s = i := by rw [consumerInstr, hc, portInstr_encode hi]
    have hpi : producerInstr s = .nop .producer := by rw [producerInstr, hp, portInstr_idle]
    rw [step_of_producer_nop hr hpi, hci]
  · intro s c hr hp hc
    have hci : consumerInstr s = .nop .consumer := by rw [consumerInstr, hc, portInstr_idle]
    have hpi : producerInstr s = .decode c := by rw [producerInstr, hp, portInstr_encode rfl]
    rw [step_of_consumer_nop hr hci, hpi]
    rfl

/-! The rule's own `Cycle` -/

theorem ruleConsumerOp_rulePortDecode (t : Nat) (s : State) (w : OpWord) :
    ruleConsumerOp t s (rulePortDecode w .consumer) = ruleConsumerOp t s (some (portInstr .consumer w)) := by
  rw [portInstr_eq_rulePortDecode]
  cases rulePortDecode w .consumer <;> rfl

theorem ruleProducerOp_rulePortDecode (s : State) (w : OpWord) :
    ruleProducerOp s (rulePortDecode w .producer) = ruleProducerOp s (some (portInstr .producer w)) := by
  rw [portInstr_eq_rulePortDecode]
  cases rulePortDecode w .producer <;> rfl

theorem ruleUpdateResp_eq (t s : State) (res : Option Int) :
    ruleUpdateResp t s res = t.setResponse res.isSome (res.getD s.respData) := by cases res <;> rfl

theorem xRaw_respData (s : State) : (xRaw s).1.respData = s.respData := by
  obtain ⟨n, he⟩ := xRaw_eq_setCounter s
  rw [he, State.setCounter_respData]

theorem xAcc_respData (t : Nat) (s : State) : (xAcc t s).1.respData = s.respData := by
  unfold xAcc
  split_ifs
  · exact xRaw_respData s
  · rcases scaledResult_cases ((xRaw s).2 * (accelMul s.params (elapsed s.params t s.lastTs) : Int))
      ((xRaw s).1.setLastTs t) with ⟨-, he⟩ | ⟨-, d, -, he⟩ <;> rw [he] <;> exact xRaw_respData s

/-- The rule's `ConsumerOp` leaves the response data to its `UpdateResp`. -/
theorem ruleConsumerOp_respData (t : Nat) (s : State) (i : Instr) :
    (ruleConsumerOp t s (some i)).1.respData = s.respData := by
  cases i with
  | nop port => rfl
  | decode c => rfl
  | init c => rcases initOp_cases c s with ⟨-, he⟩ | ⟨-, he⟩ <;> simp [ruleConsumerOp, he]
  | reset => rcases resetOp_cases s with ⟨-, he⟩ | ⟨-, he⟩ <;> simp [ruleConsumerOp, he]
  | xraw => exact xRaw_respData s
  | xnorm => exact xRaw_respData s
  | xacc => exact xAcc_respData t s

/-- A consumer operation is the rule's `ConsumerOp`, then its `UpdateResp`. -/
theorem exec_eq_ruleConsumerOp {i : Instr} {s : State} (hr : s.Ready) (hi : i.legalOn .consumer = true) :
    exec i s = .next (ruleUpdateResp (ruleConsumerOp (nowOf s) s (some i)).1 s
      (ruleConsumerOp (nowOf s) s (some i)).2) := by
  rw [ruleUpdateResp_eq, ← ruleConsumerOp_respData (nowOf s) s i]
  cases i with
  | nop port => cases eq_of_beq hi; exact admitted_of_ready hr _
  | decode c => cases hi
  | init c => exact admitted_of_ready hr _
  | reset => exact admitted_of_ready hr _
  | xraw => exact admitted_of_ready hr _
  | xnorm => exact admitted_of_ready hr _
  | xacc => exact admitted_of_ready hr _

/-- A producer operation is the rule's `ProducerOp`. -/
theorem exec_eq_ruleProducerOp {i : Instr} {s : State} (hr : s.Ready) (hi : i.legalOn .producer = true) :
    exec i s = ruleProducerOp s (some i) := by
  rcases eq_of_legalOn_producer hi with rfl | ⟨c, rfl⟩ <;> exact admitted_of_ready hr _

theorem SameConfig.nowOf {s t : State} (h : SameConfig s t) : nowOf t = nowOf s := by
  rw [Machine.nowOf, Machine.nowOf, h.pins, h.params]

/-- With the consumer first, `UpdateResp` may run before the producer's operation: they commute. -/
theorem ruleCycle_of_consumerFirst {s : State} (hr : s.Ready) (ho : s.params.order = .consumerFirst) :
    ruleCycle s = andThen (exec (consumerInstr s) s) (exec (producerInstr s)) := by
  have hc : exec (consumerInstr s) s = _ := exec_eq_ruleConsumerOp hr (consumerInstr_legalOn s)
  have hu : (ruleConsumerOp (nowOf s) s (some (consumerInstr s))).1.Ready := by
    have hready := exec_ready hc
    rwa [ruleUpdateResp_eq] at hready
  have hp := producerInstr_legalOn s
  simp only [ruleCycle, ho, ruleConsumerOp_rulePortDecode, ruleProducerOp_rulePortDecode, ruleUpdateResp_eq]
  rw [hc, andThen_next, ruleUpdateResp_eq, exec_setResponse_of_producer hp, exec_eq_ruleProducerOp hu hp]
  rfl

/-- With the producer first, the consumer's operation samples the same time and finds the same response data. -/
theorem ruleCycle_of_producerFirst {s : State} (hr : s.Ready) (ho : s.params.order = .producerFirst) :
    ruleCycle s = andThen (exec (producerInstr s) s) (exec (consumerInstr s)) := by
  have hp := producerInstr_legalOn s
  simp only [ruleCycle, ho, ruleConsumerOp_rulePortDecode, ruleProducerOp_rulePortDecode]
  rw [show portInstr .producer s.pins.pOp = producerInstr s from rfl, ← exec_eq_ruleProducerOp hr hp]
  refine andThen_congr fun u hu => ?_
  obtain ⟨-, hdata, -⟩ := exec_producer_frame hp hu
  rw [exec_eq_ruleConsumerOp (exec_ready hu) (consumerInstr_legalOn s), (exec_sameConfig hu).nowOf, ruleUpdateResp_eq,
    ruleUpdateResp_eq, hdata]
  rfl

/-- Settles O14: in either order the rule's `Cycle` is the two operations one after the other. -/
theorem stepIsRuleCycle : Obligations.StepIsRuleCycle := by
  intro s hr hrst
  cases ho : s.params.order with
  | consumerFirst => rw [step_of_consumerFirst hrst ho, ruleCycle_of_consumerFirst hr ho, andThen_assoc]
  | producerFirst => rw [step_of_producerFirst hrst ho, ruleCycle_of_producerFirst hr ho, andThen_assoc]

/-! What the consumer's operation sees of the producer's word -/

/-- The values on the input ports replaced by others. -/
def State.setPins (s : State) (x : Pins) : State := { s with pins := x }

theorem initOp_setPins (c : SignalCode) (s : State) (x : Pins) : initOp c (s.setPins x) = (initOp c s).setPins x := by
  rcases initOp_cases c s with ⟨hm, he⟩ | ⟨hm, he⟩ <;> rw [he]
  · exact if_pos hm
  · exact if_neg hm

theorem resetOp_setPins (s : State) (x : Pins) : resetOp (s.setPins x) = (resetOp s).setPins x := by
  rcases resetOp_cases s with ⟨hm, he⟩ | ⟨hm, he⟩ <;> rw [he]
  · exact if_pos hm
  · exact if_neg hm

theorem xRaw_setPins (s : State) (x : Pins) : xRaw (s.setPins x) = ((xRaw s).1.setPins x, (xRaw s).2) := by
  rcases xRaw_cases s with ⟨hf, he⟩ | ⟨hf, he⟩ <;> rw [he]
  · exact xRaw_of_fires hf
  · exact xRaw_of_not_fires hf

theorem scaledResult_setPins (v : Int) (s : State) (x : Pins) :
    scaledResult v (s.setPins x) = ((scaledResult v s).1.setPins x, (scaledResult v s).2) := by
  by_cases hv : fitsResp s.params v
  · rw [show scaledResult v s = (s, v) from if_pos hv]
    exact if_pos hv
  · rw [show scaledResult v s = (s.draw, _) from if_neg hv]
    exact if_neg hv

theorem xAcc_setPins (t : Nat) (s : State) (x : Pins) :
    xAcc t (s.setPins x) = ((xAcc t s).1.setPins x, (xAcc t s).2) := by
  unfold xAcc
  rw [xRaw_setPins]
  split_ifs with h0
  · rfl
  · exact scaledResult_setPins _ ((xRaw s).1.setLastTs t) x

/-- A consumer operation reads no input port but `now_ms` (rules R39, R44). -/
theorem exec_setPins_of_consumer {i : Instr} {s t : State} {x : Pins} (hi : i.legalOn .consumer = true)
    (hx : x.nowMs = s.pins.nowMs) (h : exec i s = .next t) : exec i (s.setPins x) = .next (t.setPins x) := by
  have hr : (s.setPins x).Ready := show s.Ready from exec_next_ready h
  have hnow : nowOf (s.setPins x) = nowOf s := by rw [nowOf, nowOf, State.setPins, hx]
  cases i with
  | nop port =>
    cases eq_of_beq hi
    rw [eq_of_admitted_next h]
    exact admitted_of_ready hr _
  | decode c => cases hi
  | init c =>
    rw [eq_of_admitted_next h, exec_init, admitted_of_ready hr, initOp_setPins]
    rfl
  | reset =>
    rw [eq_of_admitted_next h, exec_reset, admitted_of_ready hr, resetOp_setPins]
    rfl
  | xraw =>
    rw [eq_of_admitted_next h, exec_xraw, admitted_of_ready hr, xRaw_setPins]
    rfl
  | xnorm =>
    rw [eq_of_admitted_next h, exec_xnorm, admitted_of_ready hr, xRaw_setPins]
    rfl
  | xacc =>
    rw [eq_of_admitted_next h, exec_xacc, admitted_of_ready hr, hnow, xAcc_setPins]
    rfl

/-- With the consumer first, the response and `lastTs` are those its operation leaves. -/
theorem step_response_of_consumerFirst {s t : State} (ho : s.params.order = .consumerFirst)
    (hr : s.pins.rst = false) (h : step s = .next t) :
    ∃ u, exec (consumerInstr s) s = .next u ∧ t.respValid = u.respValid ∧ t.respData = u.respData ∧
      t.lastTs = u.lastTs := by
  rw [step_of_consumerFirst hr ho] at h
  obtain ⟨u, hu, h⟩ := andThen_eq_next.mp h
  obtain ⟨v, hv, h⟩ := andThen_eq_next.mp h
  cases h
  exact ⟨u, hu, exec_producer_frame (t := v) (producerInstr_legalOn s) hv⟩

/-- Settles O49: the consumer's operation runs first, reads no word of the other port, and the producer's operation
leaves what it wrote. -/
theorem responseIgnoresSameCycleDecode : Obligations.ResponseIgnoresSameCycleDecode := by
  intro s t u w ho hr ht hu
  obtain ⟨a, ha, hvalid, hdata, hts⟩ := step_response_of_consumerFirst ho hr ht
  obtain ⟨b, hb, hvalid', hdata', hts'⟩ :=
    step_response_of_consumerFirst (s := s.setPins { s.pins with pOp := w }) ho hr hu
  have hb' := exec_setPins_of_consumer (x := { s.pins with pOp := w }) (consumerInstr_legalOn s) rfl ha
  cases hb.symm.trans hb'
  exact ⟨hvalid.trans hvalid'.symm, hdata.trans hdata'.symm, hts.trans hts'.symm⟩

/-! An extraction and a DECODE in one cycle -/

theorem eq_of_extracts {i : Instr} (h : i.extracts = true) : i = .xraw ∨ i = .xnorm ∨ i = .xacc := by
  cases i with
  | nop port => cases h
  | decode c => cases h
  | init c => cases h
  | reset => cases h
  | xraw => exact .inl rfl
  | xnorm => exact .inr (.inl rfl)
  | xacc => exact .inr (.inr rfl)

theorem legalOn_consumer_of_extracts {i : Instr} (h : i.extracts = true) : i.legalOn .consumer = true := by
  rcases eq_of_extracts h with rfl | rfl | rfl <;> rfl

/-- Below the threshold every extraction answers 0 and keeps the counter. -/
theorem exec_extraction_of_not_fires {i : Instr} {s : State} (hi : i.extracts = true) (hr : s.Ready)
    (hf : s.rawCounter.natAbs < s.cfgSpc) : exec i s = .next (s.setResponse true 0) := by
  rcases eq_of_extracts hi with rfl | rfl | rfl
  · rw [exec_xraw, admitted_of_ready hr, xRaw_of_not_fires hf]
  · rw [exec_xnorm, admitted_of_ready hr, xRaw_of_not_fires hf, Int.sign_zero]
  · rw [exec_xacc, admitted_of_ready hr, xAcc_of_not_fires _ hf]

/-- At the threshold every extraction clears the counter and answers; the decoder register is untouched. -/
theorem exec_extraction_of_fires {i : Instr} {s : State} (hi : i.extracts = true) (hr : s.Ready)
    (hf : s.cfgSpc ≤ s.rawCounter.natAbs) :
    ∃ u, exec i s = .next u ∧ u.prevCode = s.prevCode ∧ u.rawCounter = 0 ∧ u.respValid = true ∧
      (i = .xraw → u.respData = tdiv s.rawCounter s.cfgSpc) := by
  rcases eq_of_extracts hi with rfl | rfl | rfl
  · rw [exec_xraw, admitted_of_ready hr, xRaw_of_fires hf]
    exact ⟨_, rfl, rfl, rfl, rfl, fun _ => rfl⟩
  · rw [exec_xnorm, admitted_of_ready hr, xRaw_of_fires hf]
    exact ⟨_, rfl, rfl, rfl, rfl, nofun⟩
  · have he := (exec_xacc s).trans (admitted_of_ready hr _)
    refine ⟨_, he, ?_⟩
    obtain ⟨-, ⟨hn, -⟩ | ⟨-, n, v, -, hu⟩⟩ := execXacc_next he
    · omega
    · rw [hu]
      exact ⟨rfl, rfl, rfl, nofun⟩

/-- A Standard DECODE with room for its delta adds it and stores the code, a repeated code included. -/
theorem exec_decode_standard {c : SignalCode} {s : State} (hr : s.Ready) (hm : s.mode = some .standard)
    (hn : (s.rawCounter + stdDelta s.prevCode c).natAbs ≤ s.params.cntMax) :
    exec (.decode c) s = .next ((s.setCounter (s.rawCounter + stdDelta s.prevCode c)).setPrevCode c) := by
  rw [exec_decode, admitted_of_ready hr, decodeOp, hm]
  dsimp only
  unfold stdDecode
  split_ifs with hc
  · rw [hc, stdDelta_self, Int.add_zero]
    rfl
  · rcases addCount_cases (stdDelta s.prevCode c) s with ⟨-, he⟩ | ⟨hn', -⟩ | ⟨hn', -⟩
    · rw [he, andThen_next]
    · omega
    · omega

/-- A legal counter has room for one micro-step from zero (rule R6). -/
theorem one_le_cntMax {p : Params} (h : p.Legal) : 1 ≤ p.cntMax := by
  obtain ⟨hw, -⟩ := h
  have hpow : 2 ^ 1 ≤ 2 ^ (p.counterW - 1) := Nat.pow_le_pow_right (by decide) (by omega)
  unfold Params.cntMax
  omega

/-- A Standard DECODE on what a firing extraction left counts from zero. -/
theorem exec_decode_after_clear {i : Instr} {c : SignalCode} {s u : State} (hlegal : s.params.Legal)
    (hm : s.mode = some .standard) (hu : exec i s = .next u) (hprev : u.prevCode = s.prevCode)
    (hzero : u.rawCounter = 0) :
    exec (.decode c) u = .next ((u.setCounter (stdDelta s.prevCode c)).setPrevCode c) := by
  have hcfg := exec_sameConfig hu
  have hroom : (u.rawCounter + stdDelta u.prevCode c).natAbs ≤ u.params.cntMax := by
    rw [hzero, Int.zero_add, hcfg.params]
    exact (stdDelta_natAbs_le _ _).trans (one_le_cntMax hlegal)
  rw [exec_decode_standard (exec_ready hu) (hcfg.mode.trans hm) hroom, hzero, Int.zero_add, hprev]

/-- Settles O50: each order runs its two operations by the rules for an extraction at or below the threshold and for a
DECODE with room for its delta. -/
theorem sameCycleExtractionAndDecode : Obligations.SameCycleExtractionAndDecode := by
  rintro s i c _ hlegal hr hm hrst hi hc hp rfl hn
  have hci : consumerInstr s = i := by rw [consumerInstr, hc, portInstr_encode (legalOn_consumer_of_extracts hi)]
  have hpi : producerInstr s = .decode c := by rw [producerInstr, hp, portInstr_encode rfl]
  have consumerFirst (ho : s.params.order = .consumerFirst) :
      step s = andThen (exec i s) fun t => andThen (exec (.decode c) t) fun u => .next u.advance := by
    rw [step_of_consumerFirst hrst ho, hci, hpi]
  have producerFirst (ho : s.params.order = .producerFirst) :
      step s = andThen (exec i ((s.setCounter (s.rawCounter + stdDelta s.prevCode c)).setPrevCode c))
        fun u => .next u.advance := by
    rw [step_of_producerFirst hrst ho, hci, hpi, exec_decode_standard hr hm hn, andThen_next]
  have hr' : ((s.setCounter (s.rawCounter + stdDelta s.prevCode c)).setPrevCode c).Ready := hr
  refine ⟨fun ho hf => ?_, fun ho hf => ?_, fun ho hf => ?_, fun ho hf => ?_⟩
  · obtain ⟨u, hu, hprev, hzero, hvalid, -⟩ := exec_extraction_of_fires hi hr hf
    rw [consumerFirst ho, hu, andThen_next, exec_decode_after_clear hlegal hm hu hprev hzero]
    exact ⟨_, rfl, rfl, rfl, hvalid⟩
  · rw [consumerFirst ho, exec_extraction_of_not_fires hi hr hf, andThen_next,
      exec_decode_standard (s := s.setResponse true 0) hr hm hn]
    exact ⟨_, rfl, rfl, rfl, rfl, rfl⟩
  · obtain ⟨u, hu, hprev, hzero, hvalid, hdata⟩ := exec_extraction_of_fires hi hr' hf
    rw [producerFirst ho, hu]
    exact ⟨_, rfl, hprev, hzero, hvalid, hdata⟩
  · rw [producerFirst ho, exec_extraction_of_not_fires hi hr' hf]
    exact ⟨_, rfl, rfl, rfl, rfl, rfl⟩

/-! The table accesses -/

theorem mem_of_romCell {table : List (List RomWord)} {r : FsmRow} {c : SignalCode} {w : RomWord}
    (h : romCell table r c = some w) : ∃ row ∈ table, w ∈ row := by
  unfold romCell at h
  split at h
  · next row hrow => exact ⟨row, List.mem_of_getElem? hrow, List.mem_of_getElem? h⟩
  · cases h

/-- In every stored word bit 3 is 0, so the register holds the next state, and at most one flag is set (rule R48). -/
theorem romOf_words (m : Mode) : ∀ row ∈ romOf m, ∀ w ∈ row,
    (romNext w).toNat = (w.extractLsb' 0 4).toNat ∧ ¬ (romCw w = true ∧ romCcw w = true) := by
  cases m <;> decide

theorem romCell_of_lt_rowCount {m : Mode} (hm : m ≠ .standard) {r : FsmRow} (hr : r.toNat < rowCount (some m))
    (c : SignalCode) : ∃ w, romCell (romOf m) r c = some w := by
  cases m with
  | standard => exact absurd rfl hm
  | buxtonFull => exact (romCell_full_of_lt r c hr).imp fun _ h => h.1
  | buxtonHalf => exact (romCell_half_of_lt r c hr).imp fun _ h => h.1

/-- Settles O18: the invariant bounds the row, its cell leads to a row again, and every stored word is as rule R48
says. -/
theorem tableAccessesInRange : Obligations.TableAccessesInRange := by
  intro s m c hs hm hne
  have hrow : s.fsmState.toNat < rowCount (some m) := hm ▸ hs.row
  obtain ⟨w, hw⟩ := romCell_of_lt_rowCount hne hrow c
  obtain ⟨row, hmem, hword⟩ := mem_of_romCell hw
  obtain ⟨hnext, hflags⟩ := romOf_words m row hmem w hword
  exact ⟨w, hw, hm ▸ hnext ▸ romNext_lt_rowCount hrow hw, hnext, hflags⟩

end Sys2Proof.Machine
end

section
/-! PROOFS. The encoding (rules R40 to R43, R50, R51): which word is read as which operation, the illegal words, which
a step performs as NOP, and the assembled lines. -/

namespace Sys2Proof.Machine

/-! The words and the operations they stand for -/

theorem legalOn_iff {port : Port} {i : Instr} : i.legalOn port = true ↔ port = i.port := by
  cases i with
  | nop q => exact beq_iff_eq.trans eq_comm
  | decode c => exact beq_iff_eq
  | init c => exact beq_iff_eq
  | reset => exact beq_iff_eq
  | xraw => exact beq_iff_eq
  | xnorm => exact beq_iff_eq
  | xacc => exact beq_iff_eq

/-- An operation's word is legal on its port and read there as that operation (rule R41). -/
theorem portDecode_encode {port : Port} {i : Instr} (h : i.legalOn port = true) :
    portDecode port (encode i) = .ok i := by
  cases i with
  | nop q => cases eq_of_beq h; cases port <;> rfl
  | decode c => cases eq_of_beq h; revert c; decide
  | init c => cases eq_of_beq h; revert c; decide
  | reset => cases eq_of_beq h; rfl
  | xraw => cases eq_of_beq h; rfl
  | xnorm => cases eq_of_beq h; rfl
  | xacc => cases eq_of_beq h; rfl

/-- A word is the packing of its three fields (rule R40). -/
theorem packWord_fields (w : OpWord) : packWord (OpWord.op w) (OpWord.rsv w) (OpWord.code w) = w := by
  unfold packWord OpWord.op OpWord.rsv OpWord.code
  rw [BitVec.extractLsb'_append_extractLsb'_eq_extractLsb' (rfl : 5 = 2 + 3),
    BitVec.extractLsb'_append_extractLsb'_eq_extractLsb' (rfl : 2 = 0 + 2), BitVec.extractLsb'_eq_self]

theorem consumerOnly_eq_ok {port : Port} {c : SignalCode} {i j : Instr} (h : consumerOnly port c i = .ok j) :
    port = .consumer ∧ c = 0b00#2 ∧ j = i := by
  unfold consumerOnly at h
  cases port with
  | producer => cases h
  | consumer =>
    split_ifs at h with hc
    exact ⟨rfl, hc, (Except.ok.inj h).symm⟩

/-- The fields of a word read as an operation are those of the operation's word, and the port is the operation's. -/
theorem fields_of_portDecode_ok {port : Port} {w : OpWord} {i : Instr} (h : portDecode port w = .ok i) :
    encode i = packWord (OpWord.op w) (OpWord.rsv w) (OpWord.code w) ∧ port = i.port := by
  unfold portDecode at h
  split_ifs at h with hrsv hnop hcode hdecode hinit hreset hxraw hxnorm hxacc
  all_goals rw [not_not.mp hrsv]
  · cases h
    rw [hnop, hcode]
    exact ⟨rfl, rfl⟩
  · cases port <;> cases h
    rw [hdecode]
    exact ⟨rfl, rfl⟩
  · cases port <;> cases h
    rw [hinit]
    exact ⟨rfl, rfl⟩
  all_goals obtain ⟨rfl, hcode, rfl⟩ := consumerOnly_eq_ok h; rw [hcode]
  · rw [hreset]
    exact ⟨rfl, rfl⟩
  · rw [hxraw]
    exact ⟨rfl, rfl⟩
  · rw [hxnorm]
    exact ⟨rfl, rfl⟩
  · rw [hxacc]
    exact ⟨rfl, rfl⟩

/-- Each port reads exactly the words of its own operations, each as its operation (rules R41, R42). -/
theorem portDecode_eq_ok_iff {port : Port} {w : OpWord} {i : Instr} :
    portDecode port w = .ok i ↔ port = i.port ∧ w = encode i := by
  constructor
  · intro h
    obtain ⟨hw, hport⟩ := fields_of_portDecode_ok h
    exact ⟨hport, (packWord_fields w).symm.trans hw.symm⟩
  · rintro ⟨hport, rfl⟩
    exact portDecode_encode (legalOn_iff.mpr hport)

/-- Settles O10: a port reads exactly the words of its own operations. -/
theorem decodeEncodeAgree : Obligations.DecodeEncodeAgree := by
  refine ⟨fun i => ⟨portDecode_eq_ok_iff.mpr ⟨rfl, rfl⟩, legalOn_iff.mpr rfl⟩, fun port w i h => ?_⟩
  obtain ⟨hport, hw⟩ := portDecode_eq_ok_iff.mp h
  exact ⟨hw.symm, hport.symm, legalOn_iff.mpr hport, portInstr_of_ok h⟩

/-- Settles O7: each word is the one its operation assembles to. -/
theorem specWordsDecode : Obligations.SpecWordsDecode := by
  refine ⟨?_, ?_, ?_, ?_, ?_, ?_, ?_, ?_, ?_, ?_, ?_, ?_, by decide, by decide, by decide⟩
  all_goals exact portDecode_eq_ok_iff.mpr ⟨rfl, rfl⟩

/-- Settles O8: `PortDecode`'s tests, in its own order, find on every word the operation the port performs. -/
theorem portDecodeFollowsRule : Obligations.PortDecodeFollowsRule := portInstr_eq_rulePortDecode

/-! The illegal words -/

theorem portInstr_of_error {port : Port} {w : OpWord} {e : Illegal} (h : portDecode port w = .error e) :
    portInstr port w = .nop port := by rw [portInstr, h]

theorem exists_error_iff {x : Except Illegal Instr} : (∃ e, x = .error e) ↔ x.isOk = false := by
  cases x <;> simp [Except.isOk, Except.toBool]

/-- Rule R43's clauses (b) to (e), on the fields of a word whose reserved bits are clear. -/
theorem portDecode_isOk_of_rsv {port : Port} {w : OpWord} (h : w.extractLsb' 2 3 = 0#3) :
    (portDecode port w).isOk = false ↔
      (w.extractLsb' 5 3 = 0b111#3 ∨
       (w.extractLsb' 0 2 ≠ 0#2 ∧ w.extractLsb' 5 3 ≠ 0b001#3 ∧ w.extractLsb' 5 3 ≠ 0b010#3) ∨
       (port = .consumer ∧ w.extractLsb' 5 3 = 0b001#3) ∨
       (port = .producer ∧ 2 ≤ (w.extractLsb' 5 3).toNat)) := by
  unfold portDecode consumerOnly OpWord.rsv OpWord.op OpWord.code
  rw [if_neg (not_not_intro h)]
  generalize w.extractLsb' 5 3 = op
  generalize w.extractLsb' 0 2 = code
  clear h
  revert op code
  cases port <;> decide

theorem portDecode_error_iff (port : Port) (w : OpWord) : (∃ e, portDecode port w = .error e) ↔
    (w.extractLsb' 2 3 ≠ 0#3 ∨ w.extractLsb' 5 3 = 0b111#3 ∨
     (w.extractLsb' 0 2 ≠ 0#2 ∧ w.extractLsb' 5 3 ≠ 0b001#3 ∧ w.extractLsb' 5 3 ≠ 0b010#3) ∨
     (port = .consumer ∧ w.extractLsb' 5 3 = 0b001#3) ∨
     (port = .producer ∧ 2 ≤ (w.extractLsb' 5 3).toNat)) := by
  by_cases hrsv : w.extractLsb' 2 3 = 0#3
  · rw [exists_error_iff, portDecode_isOk_of_rsv hrsv]
    exact (or_iff_right (not_not_intro hrsv)).symm
  · exact iff_of_true ⟨_, if_pos hrsv⟩ (.inl hrsv)

/-! A step and the words on its ports -/

/-- A change of the state that DECODE does not see: `f` keeps what the engines read and commutes with what they
write. -/
structure UnseenByDecode (f : State → State) : Prop where
  params : ∀ s, (f s).params = s.params
  mode : ∀ s, (f s).mode = s.mode
  prevCode : ∀ s, (f s).prevCode = s.prevCode
  fsmState : ∀ s, (f s).fsmState = s.fsmState
  rawCounter : ∀ s, (f s).rawCounter = s.rawCounter
  setCounter : ∀ s n, (f s).setCounter n = f (s.setCounter n)
  setPrevCode : ∀ s c, (f s).setPrevCode c = f (s.setPrevCode c)
  setFsmState : ∀ s r, (f s).setFsmState r = f (s.setFsmState r)

section
variable {f : State → State} (hf : UnseenByDecode f)
include hf

theorem UnseenByDecode.addCount_comm (d : Int) (s : State) :
    addCount d (f s) = andThen (addCount d s) fun t => .next (f t) := by
  simp only [addCount, hf.params, hf.rawCounter, hf.setCounter]
  cases satAdd s.params s.rawCounter d <;> rfl

theorem UnseenByDecode.stdDecode_comm (c : SignalCode) (s : State) :
    stdDecode c (f s) = andThen (stdDecode c s) fun t => .next (f t) := by
  simp only [stdDecode, hf.prevCode, hf.addCount_comm]
  split_ifs
  · rfl
  · simp only [andThen_assoc, andThen_next, hf.setPrevCode]

theorem UnseenByDecode.bxDecode_comm (table : List (List RomWord)) (c : SignalCode) (s : State) :
    bxDecode table c (f s) = andThen (bxDecode table c s) fun t => .next (f t) := by
  simp only [bxDecode, hf.fsmState, hf.setFsmState]
  cases romCell table s.fsmState c with
  | none => rfl
  | some w =>
    dsimp only
    split_ifs
    · rfl
    · exact hf.addCount_comm _ _

theorem UnseenByDecode.decodeOp_comm (c : SignalCode) (s : State) :
    decodeOp c (f s) = andThen (decodeOp c s) fun t => .next (f t) := by
  simp only [decodeOp, hf.mode]
  cases s.mode with
  | none => rfl
  | some m =>
    cases m with
    | standard => exact hf.stdDecode_comm c s
    | buxtonFull => exact hf.bxDecode_comm fullRomTable c s
    | buxtonHalf => exact hf.bxDecode_comm halfRomTable c s

end

theorem unseenByDecode_setPins (x : Pins) : UnseenByDecode fun s => s.setPins x :=
  ⟨fun _ => rfl, fun _ => rfl, fun _ => rfl, fun _ => rfl, fun _ => rfl, fun _ _ => rfl, fun _ _ => rfl,
    fun _ _ => rfl⟩

/-- No operation reads an input port but `now_ms` (rules R39, R44). -/
theorem exec_setPins (i : Instr) {s : State} {x : Pins} (hx : x.nowMs = s.pins.nowMs) :
    exec i (s.setPins x) = andThen (exec i s) fun t => .next (t.setPins x) := by
  by_cases hr : s.Ready
  · have hr' : (s.setPins x).Ready := hr
    cases hport : i.port with
    | consumer =>
      have hi : i.legalOn .consumer = true := legalOn_iff.mpr hport.symm
      rw [exec_eq_ruleConsumerOp hr hi, andThen_next, exec_setPins_of_consumer hi hx (exec_eq_ruleConsumerOp hr hi)]
    | producer =>
      rcases eq_of_legalOn_producer (legalOn_iff.mpr hport.symm) with rfl | ⟨c, rfl⟩
      · rw [exec_nop_producer_of_ready hr', exec_nop_producer_of_ready hr, andThen_next]
      · rw [exec_decode, exec_decode, admitted_of_ready hr', admitted_of_ready hr]
        exact (unseenByDecode_setPins x).decodeOp_comm c s
  · have hr' : ¬ (s.setPins x).Ready := hr
    rw [exec_of_not_ready hr', exec_of_not_ready hr, andThen_refused]

/-- Two operations on other input values, after which the input ports move on. -/
theorem exec_exec_setPins (i j : Instr) {s : State} {x : Pins} (hx : x.nowMs = s.pins.nowMs) :
    (andThen (exec i (s.setPins x)) fun t => andThen (exec j t) fun u => .next u.advance) =
      andThen (exec i s) fun t => andThen (exec j t) fun u => .next u.advance := by
  rw [exec_setPins i hx, andThen_assoc]
  refine andThen_congr fun t ht => ?_
  have ht' : x.nowMs = t.pins.nowMs := by rw [hx, (exec_sameConfig ht).pins]
  rw [andThen_next, exec_setPins j ht', andThen_assoc]
  rfl

/-- A cycle reads of its words only which operations the two ports perform. -/
theorem step_setPins {s : State} {x : Pins} (hr : s.pins.rst = false) (hxr : x.rst = false)
    (hx : x.nowMs = s.pins.nowMs) (hc : portInstr .consumer x.cOp = consumerInstr s)
    (hp : portInstr .producer x.pOp = producerInstr s) : step (s.setPins x) = step s := by
  have hc' : consumerInstr (s.setPins x) = consumerInstr s := hc
  have hp' : producerInstr (s.setPins x) = producerInstr s := hp
  cases ho : s.params.order with
  | consumerFirst =>
    rw [step_of_consumerFirst hr ho, step_of_consumerFirst (s := s.setPins x) hxr ho, hc', hp']
    exact exec_exec_setPins _ _ hx
  | producerFirst =>
    rw [step_of_producerFirst hr ho, step_of_producerFirst (s := s.setPins x) hxr ho, hc', hp']
    exact exec_exec_setPins _ _ hx

/-- Settles O9: a port performs NOP on an illegal word as on 0x00, and a step reads of its words only what the ports
perform; beside NOP, NOP changes the validity of the response alone. -/
theorem illegalWordsActAsNop : Obligations.IllegalWordsActAsNop := by
  refine ⟨portDecode_error_iff, fun s e hr he => ?_, fun s e hr he => ?_, fun s e f hs hr he hf => ?_⟩
  · exact (step_setPins (s := s) (x := { s.pins with cOp := 0x00#8 }) hr hr rfl
      ((portInstr_idle .consumer).trans (portInstr_of_error he).symm) rfl).symm
  · exact (step_setPins (s := s) (x := { s.pins with pOp := 0x00#8 }) hr hr rfl rfl
      ((portInstr_idle .producer).trans (portInstr_of_error he).symm)).symm
  · have hc : consumerInstr s = .nop .consumer := portInstr_of_error he
    have hp : producerInstr s = .nop .producer := portInstr_of_error hf
    rw [step_of_producer_nop hr hp, hc, exec_nop_consumer_of_ready hs]
    rfl

/-! The assembled lines -/

theorem wf_cycle {p : Params} {pi ci : Instr} {now : Option Nat} (h : (Line.cycle pi ci now).wf p = true) :
    pi.legalOn .producer = true ∧ ci.legalOn .consumer = true ∧ now.getD 0 < 2 ^ p.timeW := by
  simp only [Line.wf, Bool.and_eq_true, decide_eq_true_eq] at h
  obtain ⟨⟨⟨hpi, hci⟩, -⟩, hnow⟩ := h
  exact ⟨hpi, hci, hnow⟩

theorem wf_rst {p : Params} {m : Mode} {n : Nat} (h : (Line.rst m n).wf p = true) :
    n < 2 ^ p.stepsW ∧ (m = .standard → n ≠ 0) := by
  simpa [Line.wf, or_iff_not_imp_left] using h

/-- Every mode's code is read back as the mode (rule R45). -/
theorem ofCode_code (m : Mode) : Mode.ofCode m.code = some m := by cases m <;> rfl

/-- The configuration of a well-formed `rst` line is one a model admits (rule R46). -/
theorem configOk_rst {p : Params} {m : Mode} {n : Nat} (h : (Line.rst m n).wf p = true) :
    (Line.rst m n).pins.configOk p = true := by
  obtain ⟨hn, hzero⟩ := wf_rst h
  cases m with
  | standard =>
    have hmod : n % 2 ^ p.stepsW ≠ 0 := by rw [Nat.mod_eq_of_lt hn]; exact hzero rfl
    exact bne_iff_ne.mpr hmod
  | buxtonFull => rfl
  | buxtonHalf => rfl

/-- Settles O11: a well-formed line puts each operation's word on that operation's port; the pseudo-instructions are
fixed lists. -/
theorem assembledLinesReadBack : Obligations.AssembledLinesReadBack := by
  refine ⟨fun p pi ci now h => ?_, fun p m n h => ?_, by decide, by decide, by decide, fun n => List.map_replicate⟩
  · obtain ⟨hpi, hci, hnow⟩ := wf_cycle h
    refine ⟨portInstr_encode hpi, portInstr_encode hci, rfl, ?_, fun t ht => by rw [ht]; rfl⟩
    exact Bool.and_eq_true_iff.mpr ⟨decide_eq_true (Nat.two_pow_pos _), decide_eq_true hnow⟩
  · exact ⟨rfl, configOk_rst h, ofCode_code m, rfl⟩

end Sys2Proof.Machine
end

section
/-! PROOFS. Sequences of DECODEs with room for their counts (rules R54, R57 to R59): what they do is read off the tables
alone. -/

namespace Sys2Proof.Machine

/-! One DECODE in a Buxton mode -/

theorem addCount_of_le {d : Int} {s : State} (h : (s.rawCounter + d).natAbs ≤ s.params.cntMax) :
    addCount d s = .next (s.setCounter (s.rawCounter + d)) := by
  rcases addCount_cases d s with ⟨-, he⟩ | ⟨hn, -⟩ | ⟨hn, -⟩
  · exact he
  · omega
  · omega

theorem decodeOp_of_buxton {m : Mode} {s : State} (hm : s.mode = some m) (hne : m ≠ .standard) (c : SignalCode) :
    decodeOp c s = bxDecode (romOf m) c s := by
  cases m with
  | standard => exact absurd rfl hne
  | buxtonFull => rw [decodeOp, hm]; rfl
  | buxtonHalf => rw [decodeOp, hm]; rfl

/-- A Buxton DECODE with room for its delta moves to the cell's next row and adds the delta, which may be 0. -/
theorem exec_decode_buxton {m : Mode} {c : SignalCode} {s : State} {w : RomWord} (hr : s.Ready)
    (hm : s.mode = some m) (hne : m ≠ .standard) (hw : romCell (romOf m) s.fsmState c = some w)
    (hn : (s.rawCounter + romDelta w).natAbs ≤ s.params.cntMax) :
    exec (.decode c) s = .next ((s.setFsmState (romNext w)).setCounter (s.rawCounter + romDelta w)) := by
  rw [exec_decode, admitted_of_ready hr, decodeOp_of_buxton hm hne, bxDecode, hw]
  dsimp only
  split_ifs with hd
  · rw [hd, Int.add_zero]
    rfl
  · exact addCount_of_le (s := s.setFsmState (romNext w)) hn

/-! A sequence of DECODEs -/

/-- The sum of the deltas of a code list, from a stored code on (rules R53, R54). -/
def stdCount : SignalCode → List SignalCode → Int
  | _, [] => 0
  | p, c :: cs => stdDelta p c + stdCount c cs

/-- The row a code list leads to from a row, and the sum of its deltas; none where it leaves the table (rule R57). -/
def romTrace (table : List (List RomWord)) : FsmRow → List SignalCode → Option (FsmRow × Int)
  | r, [] => some (r, 0)
  | r, c :: cs =>
    match romCell table r c with
    | none => none
    | some w => (romTrace table (romNext w) cs).map fun x => (x.1, romDelta w + x.2)

theorem romTrace_cons_eq_some {table : List (List RomWord)} {r r' : FsmRow} {c : SignalCode} {cs : List SignalCode}
    {d : Int} (h : romTrace table r (c :: cs) = some (r', d)) :
    ∃ w d', romCell table r c = some w ∧ romTrace table (romNext w) cs = some (r', d') ∧ d = romDelta w + d' := by
  unfold romTrace at h
  split at h
  · cases h
  · next w hw =>
    obtain ⟨⟨q, d'⟩, hq, he⟩ := Option.map_eq_some_iff.mp h
    cases he
    exact ⟨w, d', hw, hq, rfl⟩

/-- Standard DECODEs with room for as many counts add the sum of their deltas and store the last code. -/
theorem execAll_decode_standard {cs : List SignalCode} {s : State} (hr : s.Ready) (hm : s.mode = some .standard)
    (hn : s.rawCounter.natAbs + cs.length ≤ s.params.cntMax) :
    execAll (cs.map .decode) s =
      .next ((s.setCounter (s.rawCounter + stdCount s.prevCode cs)).setPrevCode (cs.getLastD s.prevCode)) := by
  induction cs generalizing s with
  | nil =>
    rw [stdCount, Int.add_zero]
    rfl
  | cons c cs ih =>
    have hd := stdDelta_natAbs_le s.prevCode c
    rw [List.length_cons] at hn
    have hrest : (s.rawCounter + stdDelta s.prevCode c).natAbs + cs.length ≤ s.params.cntMax := by omega
    rw [List.map_cons, execAll, exec_decode_standard hr hm (by omega), andThen_next,
      ih (s := (s.setCounter (s.rawCounter + stdDelta s.prevCode c)).setPrevCode c) hr hm hrest,
      List.getLastD_cons, stdCount, ← Int.add_assoc]
    rfl

/-- Buxton DECODEs with room for as many counts follow the table and add the sum of their deltas. -/
theorem execAll_decode_buxton {m : Mode} {cs : List SignalCode} {s : State} {r : FsmRow} {d : Int} (hr : s.Ready)
    (hm : s.mode = some m) (hne : m ≠ .standard) (ht : romTrace (romOf m) s.fsmState cs = some (r, d))
    (hn : s.rawCounter.natAbs + cs.length ≤ s.params.cntMax) :
    execAll (cs.map .decode) s = .next ((s.setFsmState r).setCounter (s.rawCounter + d)) := by
  induction cs generalizing s d with
  | nil =>
    cases ht
    rw [Int.add_zero]
    rfl
  | cons c cs ih =>
    obtain ⟨w, d', hw, ht', rfl⟩ := romTrace_cons_eq_some ht
    have hd := romDelta_natAbs_le w
    rw [List.length_cons] at hn
    have hrest : (s.rawCounter + romDelta w).natAbs + cs.length ≤ s.params.cntMax := by omega
    rw [List.map_cons, execAll, exec_decode_buxton hr hm hne hw (by omega), andThen_next,
      ih (s := (s.setFsmState (romNext w)).setCounter (s.rawCounter + romDelta w)) hr hm ht' hrest, ← Int.add_assoc]
    rfl

/-! One electrical cycle -/

/-- A Standard sequence that ends at the stored code changes the counter alone. -/
theorem execAll_decode_standard_of_return {cs : List SignalCode} {s : State} {d : Int} (hr : s.Ready)
    (hm : s.mode = some .standard) (hn : s.rawCounter.natAbs + cs.length ≤ s.params.cntMax)
    (hlast : cs.getLastD s.prevCode = s.prevCode) (hd : stdCount s.prevCode cs = d) :
    execAll (cs.map .decode) s = .next { s with rawCounter := s.rawCounter + d } := by
  rw [execAll_decode_standard hr hm hn, hlast, hd]
  rfl

/-- A Buxton sequence that ends at the row it began in changes the counter alone. -/
theorem execAll_decode_buxton_of_return {m : Mode} {cs : List SignalCode} {s : State} {d : Int} (hr : s.Ready)
    (hm : s.mode = some m) (hne : m ≠ .standard) (hn : s.rawCounter.natAbs + cs.length ≤ s.params.cntMax)
    (ht : romTrace (romOf m) s.fsmState cs = some (s.fsmState, d)) :
    execAll (cs.map .decode) s = .next { s with rawCounter := s.rawCounter + d } :=
  execAll_decode_buxton hr hm hne ht hn

/-- Settles O26: in each mode both sequences return to the state of rest, and the tables give the sums of their
deltas. -/
theorem electricalCycleCounts : Obligations.ElectricalCycleCounts := by
  intro s hr hn
  refine ⟨fun hm hrest => ?_, fun hm hrest => ?_, fun hm hrest => ?_⟩
  · have cycle {cs d} (hlen : cs.length = 4) (hlast : cs.getLastD 0b11#2 = 0b11#2) (hd : stdCount 0b11#2 cs = d) :=
      execAll_decode_standard_of_return (cs := cs) hr hm (hlen ▸ hn) (hrest ▸ hlast) (hrest ▸ hd)
    exact ⟨cycle rfl rfl (by decide), cycle rfl rfl (by decide)⟩
  · have cycle {cs d} (hlen : cs.length = 4) (ht : romTrace fullRomTable 0#3 cs = some (0#3, d)) :=
      execAll_decode_buxton_of_return (cs := cs) hr hm nofun (hlen ▸ hn) (hrest ▸ ht)
    exact ⟨cycle rfl (by decide), cycle rfl (by decide)⟩
  · have cycle {cs d} (hlen : cs.length = 4) (ht : romTrace halfRomTable 0#3 cs = some (0#3, d)) :=
      execAll_decode_buxton_of_return (cs := cs) hr hm nofun (hlen ▸ hn) (hrest ▸ ht)
    exact ⟨cycle rfl (by decide), cycle rfl (by decide)⟩

end Sys2Proof.Machine
end

section
/-! PROOFS. The response registers after a cycle (rule R49). -/

namespace Sys2Proof.Machine

/-- The rule's `ConsumerOp` has a result exactly for an extraction. -/
theorem ruleConsumerOp_isSome (t : Nat) (s : State) (i : Instr) :
    (ruleConsumerOp t s (some i)).2.isSome = i.extracts := by cases i <;> rfl

/-- A consumer operation makes the response valid exactly if it extracts, and else holds the data. -/
theorem exec_consumer_response {i : Instr} {s t : State} (hi : i.legalOn .consumer = true) (h : exec i s = .next t) :
    t.respValid = i.extracts ∧ (i.extracts = false → t.respData = s.respData) := by
  rw [exec_eq_ruleConsumerOp (exec_next_ready h) hi, ruleUpdateResp_eq] at h
  cases h
  refine ⟨ruleConsumerOp_isSome (nowOf s) s i, fun he => ?_⟩
  have hnone : (ruleConsumerOp (nowOf s) s (some i)).2 = none := by
    rw [← Option.not_isSome_iff_eq_none, ruleConsumerOp_isSome, he]
    decide
  rw [State.setResponse_respData, hnone, Option.getD_none]

/-- Settles O48: the producer's operation leaves the response registers alone, before or after the consumer's. -/
theorem responseFollowsTheConsumer : Obligations.ResponseFollowsTheConsumer := by
  intro s t hr h
  cases ho : s.params.order with
  | consumerFirst =>
    obtain ⟨u, hu, hvalid, hdata, -⟩ := step_response_of_consumerFirst ho hr h
    obtain ⟨hextracts, hheld⟩ := exec_consumer_response (consumerInstr_legalOn s) hu
    exact ⟨hvalid.trans hextracts, fun he => hdata.trans (hheld he), fun _ => ⟨u, hu, hdata⟩, nofun⟩
  | producerFirst =>
    rw [step_of_producerFirst hr ho] at h
    obtain ⟨v, hv, h⟩ := andThen_eq_next.mp h
    obtain ⟨u, hu, h⟩ := andThen_eq_next.mp h
    cases h
    obtain ⟨-, hframe, -⟩ := exec_producer_frame (producerInstr_legalOn s) hv
    obtain ⟨hextracts, hheld⟩ := exec_consumer_response (consumerInstr_legalOn s) hu
    exact ⟨hextracts, fun he => (hheld he).trans hframe, nofun, fun _ => ⟨v, u, hv, hu, rfl⟩⟩

end Sys2Proof.Machine
end

section
/-! PROOFS. The tables of DECODE (rules R53, R55, R56): their cells, and which of them count. -/

namespace Sys2Proof.Machine

/-! `STD_ROM` -/

/-- An entry counts exactly for a one-bit change (rule R53). -/
theorem stdDelta_ne_zero_iff (a b : SignalCode) : stdDelta a b ≠ 0 ↔ (a ^^^ b = 0b01#2 ∨ a ^^^ b = 0b10#2) := by
  revert a b
  decide

/-- An entry does not count exactly for a repeat or a two-bit jump (rule R54). -/
theorem stdDelta_eq_zero_iff (a b : SignalCode) : stdDelta a b = 0 ↔ (a ^^^ b = 0b00#2 ∨ a ^^^ b = 0b11#2) := by
  revert a b
  decide

/-- The positive order is 0→1→3→2→0 (rule R53). -/
theorem stdDelta_eq_one_iff (a b : SignalCode) : stdDelta a b = 1 ↔
    (a = 0b00#2 ∧ b = 0b01#2) ∨ (a = 0b01#2 ∧ b = 0b11#2) ∨ (a = 0b11#2 ∧ b = 0b10#2) ∨
      (a = 0b10#2 ∧ b = 0b00#2) := by
  revert a b
  decide

theorem stdDelta_antisymm (a b : SignalCode) : stdDelta a b = -stdDelta b a := by
  revert a b
  decide

/-- The entry stands at index `4 * a + b` of the source's list (rules R29, R53). -/
theorem stdDelta_eq_getD (a b : SignalCode) :
    stdDelta a b = [0, 1, -1, 0, -1, 0, 0, 1, 1, 0, 0, -1, 0, -1, 1, 0].getD (4 * a.toNat + b.toNat) 0 := by
  revert a b
  decide

theorem stdRomTable_toInt :
    stdRomTable.map BitVec.toInt = [0, 1, -1, 0, -1, 0, 0, 1, 1, 0, 0, -1, 0, -1, 1, 0] := by decide

/-- Settles O15: the list, its index, its nonzero entries, its +1 entries and its symmetry, each read off the table. -/
theorem standardTableIsGrayCode : Obligations.StandardTableIsGrayCode :=
  ⟨stdRomTable_toInt, stdRomTable_toInt ▸ stdDelta_eq_getD, stdDelta_ne_zero_iff, stdDelta_eq_one_iff,
    stdDelta_antisymm⟩

/-! `FULL_ROM` and `HALF_ROM` -/

/-- The emitting cells of `FULL_ROM` (rule R55). -/
theorem romFlags_full : ∀ (r : FsmRow) (c : SignalCode), ∀ w ∈ romCell fullRomTable r c,
    (romCw w = true ↔ r = 5#3 ∧ c = 0b11#2) ∧ (romCcw w = true ↔ r = 1#3 ∧ c = 0b11#2) := by decide

/-- The emitting cells of `HALF_ROM` (rule R56). -/
theorem romFlags_half : ∀ (r : FsmRow) (c : SignalCode), ∀ w ∈ romCell halfRomTable r c,
    (romCw w = true ↔ (r = 1#3 ∧ c = 0b00#2) ∨ (r = 5#3 ∧ c = 0b11#2)) ∧
    (romCcw w = true ↔ (r = 2#3 ∧ c = 0b00#2) ∨ (r = 4#3 ∧ c = 0b11#2)) := by decide

/-- Settles O16: the words of the table, and its two emitting cells. -/
theorem fullTableCells : Obligations.FullTableCells := ⟨by decide, romFlags_full⟩

/-- Settles O17: the words of the table, and its four emitting cells. -/
theorem halfTableCells : Obligations.HalfTableCells := ⟨by decide, romFlags_half⟩

/-- A word counts exactly if it carries a flag (rule R57). -/
theorem romDelta_ne_zero_iff {w : RomWord} : romDelta w ≠ 0 ↔ romCw w = true ∨ romCcw w = true := by
  cases hcw : romCw w <;> cases hccw : romCcw w <;> simp [romDelta, hcw, hccw]

theorem romDelta_full_ne_zero {r : FsmRow} {c : SignalCode} {w : RomWord} (hw : romCell fullRomTable r c = some w)
    (hd : romDelta w ≠ 0) : (r = 1#3 ∨ r = 5#3) ∧ c = 0b11#2 := by
  obtain ⟨hcw, hccw⟩ := romFlags_full r c w hw
  rcases romDelta_ne_zero_iff.mp hd with h | h
  · obtain ⟨hr, hc⟩ := hcw.mp h
    exact ⟨.inr hr, hc⟩
  · obtain ⟨hr, hc⟩ := hccw.mp h
    exact ⟨.inl hr, hc⟩

theorem romDelta_half_ne_zero {r : FsmRow} {c : SignalCode} {w : RomWord} (hw : romCell halfRomTable r c = some w)
    (hd : romDelta w ≠ 0) :
    ((r = 1#3 ∨ r = 2#3) ∧ c = 0b00#2) ∨ ((r = 4#3 ∨ r = 5#3) ∧ c = 0b11#2) := by
  obtain ⟨hcw, hccw⟩ := romFlags_half r c w hw
  rcases romDelta_ne_zero_iff.mp hd with h | h
  · rcases hcw.mp h with ⟨hr, hc⟩ | ⟨hr, hc⟩
    · exact .inl ⟨.inl hr, hc⟩
    · exact .inr ⟨.inr hr, hc⟩
  · rcases hccw.mp h with ⟨hr, hc⟩ | ⟨hr, hc⟩
    · exact .inl ⟨.inr hr, hc⟩
    · exact .inr ⟨.inl hr, hc⟩

/-! The cell after a cell -/

/-- An emitting word leads to row 0 or row 3. -/
theorem romNext_of_romDelta_ne_zero (m : Mode) : ∀ row ∈ romOf m, ∀ w ∈ row, romDelta w ≠ 0 →
    romNext w = 0#3 ∨ romNext w = 3#3 := by cases m <;> decide

/-- Rows 0 and 3 have no emitting cell. -/
theorem romDelta_eq_zero_of_row {m : Mode} {r : FsmRow} {c : SignalCode} {v : RomWord} (hr : r = 0#3 ∨ r = 3#3)
    (hv : romCell (romOf m) r c = some v) : romDelta v = 0 := by
  by_contra hd
  cases m with
  | standard => cases hv
  | buxtonFull =>
    obtain ⟨hrow, -⟩ := romDelta_full_ne_zero hv hd
    revert hrow
    rcases hr with rfl | rfl <;> decide
  | buxtonHalf =>
    have hcells := romDelta_half_ne_zero hv hd
    revert hcells
    rcases hr with rfl | rfl <;> simp

/-- Two emitting cells never follow one another (rule R60). -/
theorem romDelta_after_emission {m : Mode} {r : FsmRow} {c c' : SignalCode} {w v : RomWord}
    (hw : romCell (romOf m) r c = some w) (hd : romDelta w ≠ 0) (hv : romCell (romOf m) (romNext w) c' = some v) :
    romDelta v = 0 := by
  obtain ⟨row, hrow, hmem⟩ := mem_of_romCell hw
  exact romDelta_eq_zero_of_row (romNext_of_romDelta_ne_zero m row hrow w hmem hd) hv

/-- The cells from which the second of two identical samples moves the automaton again are the same four in either
table (rule R61). -/
theorem romNext_repeat_ne_iff {m : Mode} {r : FsmRow} {c : SignalCode} {w v : RomWord}
    (hw : romCell (romOf m) r c = some w) (hv : romCell (romOf m) (romNext w) c = some v) :
    romNext v ≠ romNext w ↔ (r, c) ∈ [(1#3, 0b01#2), (2#3, 0b10#2), (4#3, 0b01#2), (5#3, 0b10#2)] := by
  have hcells : ∀ (r : FsmRow) (c : SignalCode), ∀ w ∈ romCell (romOf m) r c,
      ∀ v ∈ romCell (romOf m) (romNext w) c,
      (romNext v ≠ romNext w ↔ (r, c) ∈ [(1#3, 0b01#2), (2#3, 0b10#2), (4#3, 0b01#2), (5#3, 0b10#2)]) := by
    cases m with
    | standard => exact fun _ _ _ h => nomatch h
    | buxtonFull => decide
    | buxtonHalf => decide
  exact hcells r c w hw v hv

end Sys2Proof.Machine
end

section
/-! PROOFS. DECODE (rules R52, R54, R57): its words, the engine it runs in each mode, what it answers in and past the
counter's range, and that it completes. -/

namespace Sys2Proof.Machine

/-! The words and the engine -/

/-- An operation's word is its sole word: a port reads exactly the words of its own operations (rules R41, R42). -/
theorem soleWord_encode (i : Instr) : SoleWord i (encode i) := ⟨rfl, fun _ _ => portDecode_eq_ok_iff⟩

theorem soleWord_decode (c : SignalCode) : SoleWord (.decode c) (0b001000#6 ++ c) := soleWord_encode (.decode c)

theorem mode_of_cfgMode {s : State} {m : Mode} (h : s.cfgMode = m.code) : s.mode = some m := by
  rw [State.mode, h, ofCode_code]

theorem exec_decode_eq_stdDecode {s : State} (hr : s.Ready) (hm : s.mode = some .standard) (c : SignalCode) :
    exec (.decode c) s = stdDecode c s := by rw [exec_decode, admitted_of_ready hr, decodeOp, hm]

theorem exec_decode_eq_bxDecode {m : Mode} {s : State} (hr : s.Ready) (hm : s.mode = some m) (hne : m ≠ .standard)
    (c : SignalCode) : exec (.decode c) s = bxDecode (romOf m) c s := by
  rw [exec_decode, admitted_of_ready hr, decodeOp_of_buxton hm hne]

/-- Settles O20: the mode code selects the engine, and DECODE's frame holds the response registers. -/
theorem decodeRunsTheEngineOfItsMode : Obligations.DecodeRunsTheEngineOfItsMode := by
  refine ⟨soleWord_decode, fun s c hr => ⟨fun hm => ?_, fun hm => ?_, fun hm => ?_⟩, fun s t c h => ?_⟩
  · exact exec_decode_eq_stdDecode hr (mode_of_cfgMode hm) c
  · exact exec_decode_eq_bxDecode (m := .buxtonFull) hr (mode_of_cfgMode hm) nofun c
  · exact exec_decode_eq_bxDecode (m := .buxtonHalf) hr (mode_of_cfgMode hm) nofun c
  · obtain ⟨-, hvalid, hdata, -⟩ := decodeFrame s t c h
    exact ⟨hvalid, hdata⟩

/-! Past the counter's range -/

theorem addCount_of_lt_of_saturate {d : Int} {s : State} (h : s.params.cntMax < (s.rawCounter + d).natAbs)
    (ho : s.params.overflow = .saturate) : addCount d s = .next s := by
  rcases addCount_cases d s with ⟨hn, -⟩ | ⟨-, -, he⟩ | ⟨-, ho', -⟩
  · omega
  · exact he
  · cases ho.symm.trans ho'

theorem addCount_of_lt_of_fault {d : Int} {s : State} (h : s.params.cntMax < (s.rawCounter + d).natAbs)
    (ho : s.params.overflow = .fault) : addCount d s = .fault .counterOverflow := by
  rcases addCount_cases d s with ⟨hn, -⟩ | ⟨-, ho', -⟩ | ⟨-, -, he⟩
  · omega
  · cases ho.symm.trans ho'
  · exact he

/-! DECODE in Standard mode -/

theorem stdDecode_of_eq {c : SignalCode} {s : State} (hc : c = s.prevCode) : stdDecode c s = .next s := if_pos hc

theorem stdDecode_of_ne {c : SignalCode} {s : State} (hc : c ≠ s.prevCode) :
    stdDecode c s = andThen (addCount (stdDelta s.prevCode c) s) fun t => .next (t.setPrevCode c) := if_neg hc

/-- Settles O21: a new code is stored after its table entry, read at the rule's index, has been added by the policy. -/
theorem standardDecodeResult : Obligations.StandardDecodeResult := by
  refine ⟨soleWord_decode, fun s c d hr hm hd => ?_⟩
  obtain rfl : d = stdDelta s.prevCode c := hd.trans (stdDelta_eq_getD s.prevCode c).symm
  refine ⟨fun hc => ?_, fun _ hn => exec_decode_standard hr hm hn, fun hc hn ho => ?_, fun hc hn ho => ?_⟩
  · rw [exec_decode_eq_stdDecode hr hm, stdDecode_of_eq hc]
  · rw [exec_decode_eq_stdDecode hr hm, stdDecode_of_ne hc, addCount_of_lt_of_saturate hn ho]
    rfl
  · rw [exec_decode_eq_stdDecode hr hm, stdDecode_of_ne hc, addCount_of_lt_of_fault hn ho, andThen_fault]

/-! DECODE in a Buxton mode -/

theorem bxDecode_of_romDelta_eq_zero {table : List (List RomWord)} {c : SignalCode} {s : State} {w : RomWord}
    (hw : romCell table s.fsmState c = some w) (hd : romDelta w = 0) :
    bxDecode table c s = .next (s.setFsmState (romNext w)) := by
  rw [bxDecode, hw]
  exact if_pos hd

theorem bxDecode_of_romDelta_ne_zero {table : List (List RomWord)} {c : SignalCode} {s : State} {w : RomWord}
    (hw : romCell table s.fsmState c = some w) (hd : romDelta w ≠ 0) :
    bxDecode table c s = addCount (romDelta w) (s.setFsmState (romNext w)) := by
  rw [bxDecode, hw]
  exact if_neg hd

/-- Settles O22: the automaton moves by the cell, and a word with a flag counts by the policy. -/
theorem buxtonDecodeResult : Obligations.BuxtonDecodeResult := by
  refine ⟨soleWord_decode, fun s m c w d hr hm hne hw hd => ?_⟩
  obtain rfl : d = romDelta w := hd
  have hexec := exec_decode_eq_bxDecode hr hm hne c
  refine ⟨?_, fun hn h0 ho => ?_, fun hn h0 ho => ?_⟩
  · rintro (hn | h0)
    · exact exec_decode_buxton hr hm hne hw hn
    · rw [hexec, bxDecode_of_romDelta_eq_zero hw h0, h0, Int.add_zero]
      rfl
  · rw [hexec, bxDecode_of_romDelta_ne_zero hw h0]
    exact addCount_of_lt_of_saturate (s := s.setFsmState (romNext w)) hn ho
  · rw [hexec, bxDecode_of_romDelta_ne_zero hw h0]
    exact addCount_of_lt_of_fault (s := s.setFsmState (romNext w)) hn ho

/-! Every mode -/

theorem exec_decode_standard_completes {s : State} (hr : s.Ready) (hm : s.mode = some .standard)
    (ho : s.params.overflow = .saturate) (c : SignalCode) : ∃ t, exec (.decode c) s = .next t := by
  obtain ⟨hrepeat, hadd, hdrop, -⟩ := standardDecodeResult.2 s c _ hr hm rfl
  by_cases hc : c = s.prevCode
  · exact ⟨_, hrepeat hc⟩
  · rcases Nat.lt_or_ge s.params.cntMax _ with hn | hn
    · exact ⟨_, hdrop hc hn ho⟩
    · exact ⟨_, hadd hc hn⟩

theorem exec_decode_buxton_completes {m : Mode} {s : State} {c : SignalCode} {w : RomWord} (hr : s.Ready)
    (hm : s.mode = some m) (hne : m ≠ .standard) (hw : romCell (romOf m) s.fsmState c = some w)
    (ho : s.params.overflow = .saturate) : ∃ t, exec (.decode c) s = .next t := by
  obtain ⟨hmove, hdrop, -⟩ := buxtonDecodeResult.2 s m c w (romDelta w) hr hm hne hw rfl
  by_cases hd : romDelta w = 0
  · exact ⟨_, hmove (.inr hd)⟩
  · rcases Nat.lt_or_ge s.params.cntMax (s.rawCounter + romDelta w).natAbs with hn | hn
    · exact ⟨_, hdrop hn hd ho⟩
    · exact ⟨_, hmove (.inl hn)⟩

/-- Settles O23: Standard answers on every code; in a Buxton mode the invariant's row has a cell for every code. -/
theorem decodeCompletes : Obligations.DecodeCompletes := by
  intro s c hs hr ho
  obtain ⟨m, hm⟩ : ∃ m, s.mode = some m := Option.ne_none_iff_exists'.mp fun h => hr (.inl h)
  by_cases hstd : m = .standard
  · exact exec_decode_standard_completes hr (hstd ▸ hm) ho c
  · obtain ⟨w, hw, -⟩ := tableAccessesInRange s m c hs hm hstd
    exact exec_decode_buxton_completes hr hm hstd hw ho

end Sys2Proof.Machine
end

section
/-! PROOFS. Sequences of DECODEs (rules R54 (d), R60, R61): the cycle from any code, the sequences that do not count,
and the cells that move again on a repeat. -/

namespace Sys2Proof.Machine

/-! The Standard cycle from any code -/

theorem signalCode_cases (a : SignalCode) : a = 0b00#2 ∨ a = 0b01#2 ∨ a = 0b11#2 ∨ a = 0b10#2 := by
  revert a
  decide

section
variable {n : SignalCode → SignalCode} (h0 : n 0b00#2 = 0b01#2) (h1 : n 0b01#2 = 0b11#2) (h3 : n 0b11#2 = 0b10#2)
  (h2 : n 0b10#2 = 0b00#2)
include h0 h1 h3 h2

theorem stdDelta_of_order (a : SignalCode) : stdDelta a (n a) = 1 := by
  rw [stdDelta_eq_one_iff]
  rcases signalCode_cases a with rfl | rfl | rfl | rfl
  · exact .inl ⟨rfl, h0⟩
  · exact .inr (.inl ⟨rfl, h1⟩)
  · exact .inr (.inr (.inl ⟨rfl, h3⟩))
  · exact .inr (.inr (.inr ⟨rfl, h2⟩))

theorem order_four (a : SignalCode) : n (n (n (n a))) = a := by
  rcases signalCode_cases a with rfl | rfl | rfl | rfl <;> simp only [h0, h1, h3, h2]

end

/-- Settles O27: every step of the order counts +1 and every step back -1, and four of them return to the code. -/
theorem standardCycleFromAnyCode : Obligations.StandardCycleFromAnyCode := by
  intro s n hr hm hn h0 h1 h3 h2
  have hup := stdDelta_of_order h0 h1 h3 h2
  have hdown (a : SignalCode) : stdDelta (n a) a = -1 := by rw [stdDelta_antisymm, hup]
  have hfour := order_four h0 h1 h3 h2 s.prevCode
  have hfirst := hdown (n (n (n s.prevCode)))
  have hlast := hup (n (n (n s.prevCode)))
  rw [hfour] at hfirst hlast
  constructor
  · refine execAll_decode_standard_of_return hr hm hn rfl ?_
    simp only [stdCount, hup, hlast]
    rfl
  · refine execAll_decode_standard_of_return hr hm hn rfl ?_
    simp only [stdCount, hfirst, hdown]
    rfl

/-! What DECODE does to the counter and to the decoder register -/

/-- Where the table holds no count, DECODE leaves the counter. -/
theorem exec_decode_rawCounter_of_tableDelta_eq_zero {c : SignalCode} {s t : State}
    (h : exec (.decode c) s = .next t) (hd : tableDelta c s = 0) : t.rawCounter = s.rawCounter := by
  rw [exec_rawCounter h, added_decode_of_tableDelta_eq_zero hd, show cleared s (.decode c) = 0 from rfl, Int.add_zero,
    Int.sub_zero]

theorem stdDecode_prevCode {c : SignalCode} {s t : State} (h : stdDecode c s = .next t) : t.prevCode = c := by
  rcases stdDecode_next h with ⟨hc, rfl⟩ | ⟨-, -, rfl⟩ | ⟨-, -, rfl⟩
  · exact hc.symm
  · rfl
  · rfl

theorem bxDecode_fsmState {table : List (List RomWord)} {c : SignalCode} {s t : State}
    (h : bxDecode table c s = .next t) : ∃ w, romCell table s.fsmState c = some w ∧ t.fsmState = romNext w := by
  obtain ⟨w, hw, ⟨-, rfl⟩ | ⟨-, -, rfl⟩ | ⟨-, -, rfl⟩⟩ := bxDecode_next h <;> exact ⟨w, hw, rfl⟩

/-! Sequences that do not count -/

/-- A DECODE at the head of a quiet list reads an entry or a cell without a count. -/
theorem tableDelta_eq_zero_of_quiet {c : SignalCode} {cs : List SignalCode} {s t : State} (hq : Quiet (c :: cs) s)
    (h : exec (.decode c) s = .next t) : tableDelta c s = 0 := by
  obtain ⟨hstd, hfull, hhalf, -⟩ := hq
  obtain ⟨-, ⟨hm, -⟩ | ⟨hm, h⟩ | ⟨hm, h⟩⟩ := execDecode_next h
  · rw [tableDelta_of_standard hm, stdDelta_eq_zero_iff]
    exact hstd hm
  · obtain ⟨w, hw, -⟩ := bxDecode_fsmState h
    rw [tableDelta_of_romCell (m := .buxtonFull) hm hw]
    by_contra hd
    exact hfull hm (romDelta_full_ne_zero hw hd)
  · obtain ⟨w, hw, -⟩ := bxDecode_fsmState h
    obtain ⟨hcode0, hcode3⟩ := hhalf hm
    rw [tableDelta_of_romCell (m := .buxtonHalf) hm hw]
    by_contra hd
    rcases romDelta_half_ne_zero hw hd with hcell | hcell
    · exact hcode0 hcell
    · exact hcode3 hcell

/-- The rest of a quiet list is quiet from the state its first DECODE answers. -/
theorem Quiet.tail {c : SignalCode} {cs : List SignalCode} {s t : State} (hq : Quiet (c :: cs) s)
    (h : exec (.decode c) s = .next t) : Quiet cs t := by
  obtain ⟨-, -, -, htail⟩ := hq
  exact htail t h

theorem execAll_rawCounter_of_quiet {cs : List SignalCode} {s t : State} (hq : Quiet cs s)
    (h : execAll (cs.map .decode) s = .next t) : t.rawCounter = s.rawCounter := by
  induction cs generalizing s with
  | nil =>
    cases h
    rfl
  | cons c cs ih =>
    obtain ⟨u, hu, ht⟩ := andThen_eq_next.mp h
    exact (ih (hq.tail hu) ht).trans
      (exec_decode_rawCounter_of_tableDelta_eq_zero hu (tableDelta_eq_zero_of_quiet hq hu))

theorem tableDelta_repeat_of_buxton {m : Mode} {c : SignalCode} {s t u : State} (hm : s.mode = some m)
    (hne : m ≠ .standard) (hst : bxDecode (romOf m) c s = .next t) (hd : tableDelta c s ≠ 0)
    (htu : exec (.decode c) t = .next u) : tableDelta c t = 0 := by
  have hmt : t.mode = some m := (bxDecode_sameConfig hst).mode.trans hm
  rw [exec_decode_eq_bxDecode (exec_next_ready htu) hmt hne] at htu
  obtain ⟨w, hw, hnext⟩ := bxDecode_fsmState hst
  obtain ⟨v, hv, -⟩ := bxDecode_fsmState htu
  rw [tableDelta_of_romCell hm hw] at hd
  rw [tableDelta_of_romCell hmt hv]
  exact romDelta_after_emission hw hd (hnext ▸ hv)

/-- After a DECODE whose table entry counts, the same code reads an entry that does not. -/
theorem tableDelta_repeat {c : SignalCode} {s t u : State} (hst : exec (.decode c) s = .next t)
    (hd : tableDelta c s ≠ 0) (htu : exec (.decode c) t = .next u) : tableDelta c t = 0 := by
  have hmode := (exec_sameConfig hst).mode
  obtain ⟨-, ⟨hm, hst⟩ | ⟨hm, hst⟩ | ⟨hm, hst⟩⟩ := execDecode_next hst
  · rw [tableDelta_of_standard (hmode.trans hm), stdDecode_prevCode hst, stdDelta_self]
  · exact tableDelta_repeat_of_buxton hm nofun hst hd htu
  · exact tableDelta_repeat_of_buxton hm nofun hst hd htu

/-- Settles O28: a quiet list reads no count, code by code; after a count the same code reads none. -/
theorem quietSequencesDoNotCount : Obligations.QuietSequencesDoNotCount := by
  refine ⟨fun cs s t => execAll_rawCounter_of_quiet, fun s t u c hst hcount htu => ?_⟩
  have hd : tableDelta c s ≠ 0 := fun hd => hcount (exec_decode_rawCounter_of_tableDelta_eq_zero hst hd)
  exact exec_decode_rawCounter_of_tableDelta_eq_zero htu (tableDelta_repeat hst hd htu)

/-! The cells that move again -/

/-- A cell whose word is a next state without flags moves the automaton alone, at any value of the counter. -/
theorem exec_decode_buxton_of_plain_cell {m : Mode} {c : SignalCode} {s : State} {r : FsmRow} (hr : s.Ready)
    (hm : s.mode = some m) (hne : m ≠ .standard) (hw : romCell (romOf m) s.fsmState c = some (0#3 ++ r)) :
    exec (.decode c) s = .next (s.setFsmState r) := by
  have hplain : ∀ r : FsmRow, romDelta (0#3 ++ r) = 0 ∧ romNext (0#3 ++ r) = r := by decide
  obtain ⟨hd, hnext⟩ := hplain r
  rw [exec_decode_eq_bxDecode hr hm hne, bxDecode_of_romDelta_eq_zero hw hd, hnext]

/-- Two identical samples through the plain cells of a list of (row, code, first state, second state). -/
theorem exec_decode_repeat_of_plain_cells {m : Mode} {s : State} {l : List (FsmRow × SignalCode × FsmRow × FsmRow)}
    (hr : s.Ready) (hm : s.mode = some m) (hne : m ≠ .standard)
    (hl : ∀ x ∈ l, romCell (romOf m) x.1 x.2.1 = some (0#3 ++ x.2.2.1) ∧
      romCell (romOf m) x.2.2.1 x.2.1 = some (0#3 ++ x.2.2.2)) :
    ∀ x ∈ l, s.fsmState = x.1 → exec (.decode x.2.1) s = .next { s with fsmState := x.2.2.1 } ∧
      execAll [.decode x.2.1, .decode x.2.1] s = .next { s with fsmState := x.2.2.2 } := by
  intro x hx hrow
  obtain ⟨hfirst, hsecond⟩ := hl x hx
  have hexec := exec_decode_buxton_of_plain_cell hr hm hne (hrow ▸ hfirst)
  refine ⟨hexec, ?_⟩
  rw [execAll, hexec, andThen_next, execAll,
    exec_decode_buxton_of_plain_cell (s := s.setFsmState x.2.2.1) hr hm hne hsecond]
  rfl

/-- Settles O29: the tables hold a plain cell at each of the eight cells and at each repeat, and no other cell moves
again. -/
theorem repeatAfterJumpMovesAgain : Obligations.RepeatAfterJumpMovesAgain := by
  refine ⟨fun m _ r c w v => romNext_repeat_ne_iff, fun s hr => ⟨fun hm => ?_, fun hm => ?_⟩⟩
  · exact exec_decode_repeat_of_plain_cells hr hm nofun (List.all_iff_forall_prop.mp rfl)
  · exact exec_decode_repeat_of_plain_cells hr hm nofun (List.all_iff_forall_prop.mp rfl)

end Sys2Proof.Machine
end

section
/-! PROOFS. The extractions (rules R64 to R68, R74): the quotient and its rounding, what a firing and a non-firing XRAW
answer, the progress that stays below the threshold, and the sizes of the results. -/

namespace Sys2Proof.Machine

/-! The quotient -/

theorem tdiv_natAbs (a : Int) (b : Nat) : (tdiv a b).natAbs = a.natAbs / b := by
  rw [tdiv, Int.natAbs_mul, Int.natAbs_natCast, Int.natAbs_sign]
  split_ifs with h0
  · rw [h0, Int.natAbs_zero, Nat.zero_div, Nat.mul_zero]
  · exact Nat.one_mul _

/-- The quotient is 0 or has the sign of the dividend (rule R65). -/
theorem tdiv_mul_self_nonneg (a : Int) (b : Nat) : 0 ≤ tdiv a b * a :=
  calc (0 : Int) ≤ (a.natAbs : Int) * ((a.natAbs / b : Nat) : Int) := by positivity
    _ = a.sign * a * ((a.natAbs / b : Nat) : Int) := by rw [Int.sign_mul_self_eq_natAbs]
    _ = tdiv a b * a := by rw [tdiv]; ring

theorem tdiv_one (a : Int) : tdiv a 1 = a := by rw [tdiv, Nat.div_one, Int.sign_mul_natAbs]

/-! XRAW -/

/-- XRAW at the threshold clears the counter and answers the quotient. -/
theorem exec_xraw_of_fires {s : State} (hr : s.Ready) (hf : s.cfgSpc ≤ s.rawCounter.natAbs) :
    exec .xraw s = .next ((s.setCounter 0).setResponse true (tdiv s.rawCounter s.cfgSpc)) := by
  rw [exec_xraw, admitted_of_ready hr, xRaw_of_fires hf]

/-- Settles O32: XRAW at the threshold, and below it. -/
theorem xrawResult : Obligations.XrawResult :=
  ⟨soleWord_encode .xraw, fun _ hr => ⟨exec_xraw_of_fires hr, exec_extraction_of_not_fires rfl hr⟩⟩

/-- On either side of the threshold XRAW answers the quotient, which is 0 below it. -/
theorem exec_xraw_of_ready {s : State} (hr : s.Ready) :
    exec .xraw s =
      .next ((s.setCounter (if s.cfgSpc ≤ s.rawCounter.natAbs then 0 else s.rawCounter)).setResponse true
        (tdiv s.rawCounter s.cfgSpc)) := by
  by_cases hf : s.cfgSpc ≤ s.rawCounter.natAbs
  · rw [if_pos hf, exec_xraw_of_fires hr hf]
  · have hlt : s.rawCounter.natAbs < s.cfgSpc := Nat.not_le.mp hf
    rw [if_neg hf, exec_extraction_of_not_fires rfl hr hlt, (tdiv_eq_zero_iff fun h0 => hr (.inr h0)).mpr hlt]
    rfl

/-- The rows of rule R65's table. -/
theorem tdiv_four_table :
    ∀ x ∈ [(7, 1, 0), (-7, -1, 0), (4, 1, 0), (-4, -1, 0), (3, 0, 3), (-3, 0, -3), ((0 : Int), (0 : Int), (0 : Int))],
      tdiv x.1 4 = x.2.1 ∧ (if 4 ≤ x.1.natAbs then 0 else x.1) = x.2.2 := by decide

/-- Settles O33: the quotient's magnitude is the magnitudes' quotient, and each row of the table is computed. -/
theorem xrawRoundsTowardZero : Obligations.XrawRoundsTowardZero := by
  refine ⟨fun s hr => ⟨_, exec_xraw_of_ready hr, ?_⟩, fun s hr hspc x hx hc => ?_⟩
  · have hpos : 0 < s.cfgSpc := Nat.pos_of_ne_zero fun h0 => hr (.inr h0)
    rw [State.setResponse_respData, tdiv_natAbs]
    exact ⟨Nat.div_mul_le_self _ _, Nat.mul_comm _ _ ▸ Nat.lt_mul_div_succ _ hpos, tdiv_mul_self_nonneg _ _⟩
  · have hrow := tdiv_four_table x hx
    rw [← hc, ← hspc] at hrow
    obtain ⟨hresult, hcounter⟩ := hrow
    rw [exec_xraw_of_ready hr, hresult, hcounter]
    rfl

/-! The remainder, and the progress below the threshold -/

theorem extracts_iff {i : Instr} : i.extracts = true ↔ i = .xraw ∨ i = .xnorm ∨ i = .xacc :=
  ⟨eq_of_extracts, by rintro (rfl | rfl | rfl) <;> rfl⟩

/-- Settles O34: the extraction leaves 0, which is below every admitted threshold. -/
theorem firingExtractionDropsRemainder : Obligations.FiringExtractionDropsRemainder := by
  refine ⟨fun s i hr hi hf => ?_, fun s hr hspc hc => ?_⟩
  · obtain ⟨t, ht, -, hzero, -⟩ := exec_extraction_of_fires (extracts_iff.mpr hi) hr hf
    have hready := exec_ready ht
    have hlow : t.rawCounter.natAbs < t.cfgSpc := by
      rw [hzero]
      exact Nat.pos_of_ne_zero fun h0 => hready (.inr h0)
    exact ⟨t, ht, hzero, exec_extraction_of_not_fires rfl hready hlow⟩
  · have hq : tdiv s.rawCounter s.cfgSpc = 1 := by rw [hc, hspc]; decide
    rw [exec_xraw_of_fires hr (by omega), hq]
    rfl

/-- Below the threshold a sequence of extractions answers 0 throughout: each leaves a state the next finds as it was. -/
theorem execAll_extractions_of_not_fires {ops : List Instr} {s : State} (hr : s.Ready)
    (hf : s.rawCounter.natAbs < s.cfgSpc) (hops : ∀ i ∈ ops, i.extracts = true) :
    execAll ops s = .next (if ops = [] then s else s.setResponse true 0) := by
  induction ops generalizing s with
  | nil => rfl
  | cons i is ih =>
    obtain ⟨hi, his⟩ := List.forall_mem_cons.mp hops
    have hnext : execAll is (s.setResponse true 0) = _ := ih (s := s.setResponse true 0) hr hf his
    rw [execAll, exec_extraction_of_not_fires hi hr hf, andThen_next, hnext, if_neg (List.cons_ne_nil i is)]
    split_ifs <;> rfl

theorem cleared_of_not_fires {s : State} {i : Instr} (hi : i ≠ .reset) (hf : s.rawCounter.natAbs < s.cfgSpc) :
    cleared s i = 0 := by
  have hnf : ¬ s.Fires := Nat.not_le.mpr hf
  cases i with
  | nop port => rfl
  | decode c => rfl
  | init c => rfl
  | reset => exact absurd rfl hi
  | xraw => exact if_neg hnf
  | xnorm => exact if_neg hnf
  | xacc => exact if_neg hnf

theorem added_of_ne_decode {s : State} {i : Instr} (hi : ∀ c, i ≠ .decode c) : added s i = 0 := by
  cases i with
  | decode c => exact absurd rfl (hi c)
  | nop port => rfl
  | init c => rfl
  | reset => rfl
  | xraw => rfl
  | xnorm => rfl
  | xacc => rfl

/-- Settles O35: a sequence of extractions by induction; any other operation by its entries in the ledger of rule R35;
and a Buxton block by its divisor of 1. -/
theorem partialProgressIsKept : Obligations.PartialProgressIsKept := by
  refine ⟨fun ops s hr hf hops => ?_, fun s t i h hf hreset hdecode => ?_, fun s hs hr hm hc => ?_⟩
  · exact execAll_extractions_of_not_fires hr hf fun i hi => extracts_iff.mpr (hops i hi)
  · rw [exec_rawCounter h, added_of_ne_decode hdecode, cleared_of_not_fires hreset hf, Int.add_zero, Int.sub_zero]
  · have hspc : s.cfgSpc = 1 := hs.divisor hm
    have hq : tdiv s.rawCounter s.cfgSpc = s.rawCounter := by rw [hspc, tdiv_one]
    rw [exec_xraw_of_fires hr (by omega), hq]
    rfl

/-! The sizes of the results -/

/-- `r_data` shows a response that fits it exactly (rule R39). -/
theorem rData_toInt {s : State} (h : fitsResp s.params s.respData) : s.rData.toInt = s.respData :=
  BitVec.toInt_ofInt_eq_self (by unfold Params.respW; omega) h.1 h.2

theorem accelMul_le {p : Params} {m : Nat} (hfast : p.fastMul ≤ m) (hslow : p.slowMul ≤ m) (hbase : p.baseMul ≤ m)
    (e : Nat) : accelMul p e ≤ m := by
  unfold accelMul
  split_ifs
  · exact hfast
  · exact hslow
  · exact hbase

/-- The two bits the response has beyond the counter hold a multiplier of 4 (rule R74). -/
theorem fitsResp_of_natAbs_le_mul {p : Params} {v : Int} {m : Nat} (hp : p.Legal) (hm : m ≤ 4)
    (h : v.natAbs ≤ m * p.cntMax) : fitsResp p v := by
  obtain ⟨hw, -⟩ := hp
  have hpow : 2 ^ (p.respW - 1) = 4 * 2 ^ (p.counterW - 1) := by
    rw [show p.respW - 1 = 2 + (p.counterW - 1) by unfold Params.respW; omega, Nat.pow_add]
  have hpos : 0 < 2 ^ (p.counterW - 1) := Nat.two_pow_pos _
  have hlt : v.natAbs < 2 ^ (p.respW - 1) :=
    calc v.natAbs ≤ 4 * p.cntMax := h.trans (Nat.mul_le_mul_right _ hm)
      _ < 2 ^ (p.respW - 1) := by unfold Params.cntMax; omega
  have hlt : (v.natAbs : Int) < 2 ^ (p.respW - 1) := by exact_mod_cast hlt
  constructor <;> omega

/-- XACC's product before it is fitted to the response (rule R70). -/
def accelProduct (s : State) : Int :=
  tdiv s.rawCounter s.cfgSpc * (accelMul s.params (elapsed s.params (nowOf s) s.lastTs) : Int)

/-- XACC at the threshold, with a product that fits, answers the product and draws no free value. -/
theorem exec_xacc_of_fits {s : State} (hr : s.Ready) (hf : s.cfgSpc ≤ s.rawCounter.natAbs)
    (hv : fitsResp s.params (accelProduct s)) :
    exec .xacc s = .next (((s.setCounter 0).setLastTs (nowOf s)).setResponse true (accelProduct s)) := by
  have hscaled : xAcc (nowOf s) s = ((s.setCounter 0).setLastTs (nowOf s), accelProduct s) :=
    (xAcc_of_fires _ (fun h0 => hr (.inr h0)) hf).trans (if_pos hv)
  rw [exec_xacc, admitted_of_ready hr, hscaled]

theorem accelProduct_natAbs_le {s : State} {m : Nat} (hc : s.rawCounter.natAbs ≤ s.params.cntMax)
    (hm : ∀ e, accelMul s.params e ≤ m) : (accelProduct s).natAbs ≤ m * s.params.cntMax := by
  rw [accelProduct, Int.natAbs_mul, Int.natAbs_natCast, Nat.mul_comm]
  exact Nat.mul_le_mul (hm _) ((tdiv_natAbs_le _ _).trans hc)

/-- With multipliers up to 4 XACC answers at most the largest of them times `CNT_MAX`, and nothing free (rule R74). -/
theorem exec_xacc_bound {s t : State} {m : Nat} (hs : s.Inv) (hm : ∀ e, accelMul s.params e ≤ m) (hm4 : m ≤ 4)
    (h : exec .xacc s = .next t) : t.respData.natAbs ≤ m * s.params.cntMax ∧ t.draws = s.draws := by
  have hr := exec_next_ready h
  have hbound := accelProduct_natAbs_le hs.counter hm
  rcases Nat.lt_or_ge s.rawCounter.natAbs s.cfgSpc with hf | hf
  · cases h.symm.trans (exec_extraction_of_not_fires rfl hr hf)
    exact ⟨Nat.zero_le _, rfl⟩
  · cases h.symm.trans (exec_xacc_of_fits hr hf (fitsResp_of_natAbs_le_mul hs.legal hm4 hbound))
    exact ⟨hbound, rfl⟩

/-- Settles O36: the state answered keeps the invariant, so its response fits; and each result is bounded by the counter
it was taken from. -/
theorem resultsFitTheResponse : Obligations.ResultsFitTheResponse := by
  intro s t i hs h
  have hr := exec_next_ready h
  refine ⟨rData_toInt (exec_inv hs h).response, ?_, ?_, ?_, ?_⟩
  · rintro rfl
    cases h.symm.trans (exec_xraw_of_ready hr)
    exact (tdiv_natAbs_le _ _).trans hs.counter
  · rintro rfl
    rw [eq_of_admitted_next h]
    rcases Int.sign_trichotomy (xRaw s).2 with hsign | hsign | hsign
    · exact .inr (.inr hsign)
    · exact .inr (.inl hsign)
    · exact .inl hsign
  · rintro rfl hslow hbase hfast
    exact exec_xacc_bound hs (accelMul_le le_rfl hslow hbase) hfast h
  · rintro rfl hspc
    cases h.symm.trans (exec_extraction_of_not_fires rfl hr (hs.counter.trans_lt hspc))
    exact ⟨rfl, rfl⟩

end Sys2Proof.Machine
end

section
/-! PROOFS. XNORM and XACC (rules R69 to R74): the sign, the elapsed time and its multiplier, the product with and without
room in the response, and who writes `lastTs`. -/

namespace Sys2Proof.Machine

/-! XNORM -/

/-- XNORM at the threshold clears the counter and answers its sign. -/
theorem exec_xnorm_of_fires {s : State} (hr : s.Ready) (hf : s.cfgSpc ≤ s.rawCounter.natAbs) :
    exec .xnorm s = .next ((s.setCounter 0).setResponse true s.rawCounter.sign) := by
  rw [exec_xnorm, admitted_of_ready hr, xRaw_of_fires hf, tdiv_sign (fun h0 => hr (.inr h0)) hf]

/-- Settles O37: at the threshold the quotient has the sign of the counter, below it every extraction answers 0. -/
theorem xnormResult : Obligations.XnormResult := by
  refine ⟨soleWord_encode .xnorm, fun s hr => ⟨fun hf hc => ?_, fun hf hc => ?_, exec_extraction_of_not_fires rfl hr⟩⟩
  · rw [exec_xnorm_of_fires hr hf, Int.sign_eq_one_of_pos hc]
    rfl
  · rw [exec_xnorm_of_fires hr hf, Int.sign_eq_neg_one_of_neg hc]
    rfl

/-! The elapsed time and its multiplier -/

/-- `elapsed` is the natural number that rule R70 names by an integer remainder. -/
theorem elapsed_eq {p : Params} {t last e : Nat} (he : (e : Int) = ((t : Int) - last) % (2 ^ p.timeW : Int)) :
    elapsed p t last = e := by
  rw [elapsed, Nat.cast_pow, Nat.cast_ofNat, ← he, Int.toNat_natCast]

/-- The time sampled `k` ms after `last` gives `k` up to whole turns of the clock (rule R71). -/
theorem elapsed_add (p : Params) (last k : Nat) : elapsed p ((last + k) % 2 ^ p.timeW) last = k % 2 ^ p.timeW := by
  apply elapsed_eq
  push_cast
  rw [Int.emod_sub_emod, add_sub_cancel_left]

theorem accelMul_of_lt_fastMs {p : Params} {e : Nat} (h : e < p.fastMs) : accelMul p e = p.fastMul := if_pos h

theorem accelMul_of_lt_slowMs {p : Params} {e : Nat} (hfast : p.fastMs ≤ e) (hslow : e < p.slowMs) :
    accelMul p e = p.slowMul := by
  rw [accelMul, if_neg (Nat.not_lt.mpr hfast), if_pos hslow]

theorem accelMul_of_slowMs_le {p : Params} {e : Nat} (hfast : p.fastMs ≤ e) (hslow : p.slowMs ≤ e) :
    accelMul p e = p.baseMul := by
  rw [accelMul, if_neg (Nat.not_lt.mpr hfast), if_neg (Nat.not_lt.mpr hslow)]

/-- Settles O40: the default thresholds are 25 and 60. -/
theorem defaultThresholds : Obligations.DefaultThresholds := fun _ =>
  ⟨fun h => accelMul_of_lt_fastMs (Nat.lt_succ_of_le h),
    fun hfast hslow => accelMul_of_lt_slowMs hfast (Nat.lt_succ_of_le hslow),
    fun h => accelMul_of_slowMs_le (le_trans (by decide) h) h⟩

/-! XACC -/

/-- The product at an elapsed time given as rule R70 gives it. -/
theorem accelProduct_eq {s : State} {e : Nat} (he : elapsed s.params (nowOf s) s.lastTs = e) :
    accelProduct s = tdiv s.rawCounter s.cfgSpc * (accelMul s.params e : Int) := by
  rw [accelProduct, he]

/-- Settles O38: below the threshold as every extraction, at it with the product of the elapsed time's multiplier. -/
theorem xaccResult : Obligations.XaccResult := by
  refine ⟨soleWord_encode .xacc, ?_⟩
  rintro s t e m r hr rfl he rfl rfl
  refine ⟨exec_extraction_of_not_fires rfl hr, fun hf hv => ?_⟩
  have hproduct := accelProduct_eq (elapsed_eq he)
  rw [exec_xacc_of_fits hr hf (hproduct ▸ hv), hproduct]
  rfl

/-- XACC at the threshold, with a product that does not fit, draws a response that does; its other effects stand. -/
theorem exec_xacc_of_not_fits {s : State} (hr : s.Ready) (hf : s.cfgSpc ≤ s.rawCounter.natAbs)
    (hv : ¬ fitsResp s.params (accelProduct s)) :
    ∃ d, fitsResp s.params d ∧
      exec .xacc s = .next (((s.setCounter 0).setLastTs (nowOf s)).draw.setResponse true d) := by
  rcases scaledResult_cases (accelProduct s) ((s.setCounter 0).setLastTs (nowOf s)) with ⟨hfits, -⟩ | ⟨-, d, hd, he⟩
  · exact absurd hfits hv
  · have hscaled : xAcc (nowOf s) s = _ := (xAcc_of_fires _ (fun h0 => hr (.inr h0)) hf).trans he
    exact ⟨d, hd, by rw [exec_xacc, admitted_of_ready hr, hscaled]⟩

/-- Settles O58: the scaling draws its value where the product does not fit. -/
theorem xaccPastTheResponse : Obligations.XaccPastTheResponse := fun _ _ hr hf he hv =>
  exec_xacc_of_not_fits hr hf fun hfits => hv (accelProduct_eq (elapsed_eq he) ▸ hfits)

/-- Settles O39: whole turns of the clock leave the elapsed time as it is. -/
theorem elapsedTimeIsModular : Obligations.ElapsedTimeIsModular := by
  rintro s k v _ hr hf hnow rfl hv
  have ht : nowOf s = (s.lastTs + k) % 2 ^ s.params.timeW := by rw [nowOf, hnow]
  have hproduct := accelProduct_eq (s := s) (ht ▸ elapsed_add s.params s.lastTs k)
  exact ⟨_, exec_xacc_of_fits hr hf (hproduct ▸ hv), hproduct, ht⟩

/-! Who writes `lastTs` -/

/-- An operation other than XACC leaves `lastTs` (rule R18). -/
theorem exec_lastTs {i : Instr} {s t : State} (hi : i ≠ .xacc) (h : exec i s = .next t) : t.lastTs = s.lastTs := by
  obtain ⟨-, -, -, -, -, -, -, -, hwriter, -⟩ := registerWriters s t i h
  exact not_not.mp fun hne => hi (hwriter (.inl hne))

theorem producerInstr_ne_xacc (s : State) : producerInstr s ≠ .xacc := fun h =>
  nomatch h ▸ producerInstr_legalOn s

/-- Settles O41: XACC stores the time exactly where the quotient is nonzero, which is at the threshold; of the two
operations of a cycle the producer's is never XACC. -/
theorem timestampOnlyOnNonzeroXacc : Obligations.TimestampOnlyOnNonzeroXacc := by
  refine ⟨fun s t h => ?_, fun s t i => exec_lastTs, fun s t hrst hc h => ?_⟩
  · obtain ⟨hr, hcases⟩ := execXacc_next h
    rw [ne_eq, tdiv_eq_zero_iff fun h0 => hr (.inr h0)]
    rcases hcases with ⟨hf, rfl⟩ | ⟨hf, n, v, -, rfl⟩
    · exact ⟨fun hnf => absurd hf hnf, fun _ => ⟨rfl, rfl, rfl⟩⟩
    · exact ⟨fun _ => rfl, fun hnf => absurd hf (Nat.not_le.mpr hnf)⟩
  · have hp := producerInstr_ne_xacc s
    rcases step_next h with ⟨hrst', -⟩ | ⟨-, -, u, v, hu, hv, rfl⟩ | ⟨-, -, u, v, hu, hv, rfl⟩
    · exact absurd (hrst.symm.trans hrst') (by decide)
    · exact (exec_lastTs hp hv).trans (exec_lastTs hc hu)
    · exact (exec_lastTs hc hv).trans (exec_lastTs hp hu)

end Sys2Proof.Machine
end

section
/-! PROOFS. INIT, RESET and NOP (rules R75, R76, R78): their words, and what each of them leaves of an admitted block. -/

namespace Sys2Proof.Machine

theorem initOp_of_standard {s : State} (hm : s.mode = some .standard) (c : SignalCode) :
    initOp c s = s.setPrevCode c := if_pos hm

theorem initOp_of_not_standard {s : State} (hm : s.mode ≠ some .standard) (c : SignalCode) :
    initOp c s = s.setFsmState 0#3 := if_neg hm

theorem resetOp_of_standard {s : State} (hm : s.mode = some .standard) : resetOp s = s.setCounter 0 := if_pos hm

theorem resetOp_of_not_standard {s : State} (hm : s.mode ≠ some .standard) :
    resetOp s = (s.setCounter 0).setFsmState 0#3 := if_neg hm

/-- INIT of a Standard block stores the sample. -/
theorem exec_init_of_standard {s : State} (hr : s.Ready) (hm : s.mode = some .standard) (c : SignalCode) :
    exec (.init c) s = .next ((s.setPrevCode c).setResponse false s.respData) := by
  rw [exec_init, admitted_of_ready hr, initOp_of_standard hm, State.setPrevCode_respData]

/-- INIT of a Buxton block selects row 0, whatever the sample. -/
theorem exec_init_of_not_standard {s : State} (hr : s.Ready) (hm : s.mode ≠ some .standard) (c : SignalCode) :
    exec (.init c) s = .next ((s.setFsmState 0#3).setResponse false s.respData) := by
  rw [exec_init, admitted_of_ready hr, initOp_of_not_standard hm, State.setFsmState_respData]

/-- RESET of a Standard block clears the counter. -/
theorem exec_reset_of_standard {s : State} (hr : s.Ready) (hm : s.mode = some .standard) :
    exec .reset s = .next ((s.setCounter 0).setResponse false s.respData) := by
  rw [exec_reset, admitted_of_ready hr, resetOp_of_standard hm, State.setCounter_respData]

/-- RESET of a Buxton block clears the counter and selects row 0. -/
theorem exec_reset_of_not_standard {s : State} (hr : s.Ready) (hm : s.mode ≠ some .standard) :
    exec .reset s = .next (((s.setCounter 0).setFsmState 0#3).setResponse false s.respData) := by
  rw [exec_reset, admitted_of_ready hr, resetOp_of_not_standard hm]
  rfl

/-- A repeat of an operation that leaves a state it keeps changes nothing. -/
theorem execAll_repeat {i : Instr} {s t : State} (h : exec i s = .next t) (ht : exec i t = .next t) :
    execAll [i, i] s = exec i s := by
  rw [execAll, h, andThen_next, execAll, ht]
  rfl

/-- Settles O42: INIT writes one decoder register, by the mode, and a second INIT writes it the same value. -/
theorem initResult : Obligations.InitResult := by
  refine ⟨fun c => soleWord_encode (.init c), fun s c hr => ⟨fun hm => ?_, fun hm => ?_⟩⟩
  · have hs := exec_init_of_standard hr hm c
    exact ⟨hs, execAll_repeat hs
      (exec_init_of_standard (s := (s.setPrevCode c).setResponse false s.respData) hr hm c)⟩
  · have hs := exec_init_of_not_standard hr hm c
    exact ⟨hs, execAll_repeat hs
      (exec_init_of_not_standard (s := (s.setFsmState 0#3).setResponse false s.respData) hr hm c)⟩

/-- Settles O43: RESET in either kind of mode. -/
theorem resetResult : Obligations.ResetResult :=
  ⟨soleWord_encode .reset, fun _ hr => ⟨exec_reset_of_standard hr, exec_reset_of_not_standard hr⟩⟩

/-- Settles O44: on `p_op` NOP answers the state it found, so a cycle of NOPs is the consumer's NOP alone. -/
theorem nopResult : Obligations.NopResult := by
  refine ⟨soleWord_encode (.nop .producer), soleWord_encode (.nop .consumer), fun _ _ _ => portInstr_of_error,
    fun s hr => ⟨exec_nop_producer_of_ready hr, exec_nop_consumer_of_ready hr, fun hrst hp hc => ?_⟩⟩
  have hpi : producerInstr s = .nop .producer := by rw [producerInstr, hp, portInstr_idle]
  have hci : consumerInstr s = .nop .consumer := by rw [consumerInstr, hc, portInstr_idle]
  rw [step_of_producer_nop hrst hpi, hci, exec_nop_consumer_of_ready hr]
  rfl

end Sys2Proof.Machine
end

section
/-! PROOFS. Rule R77: two blocks that agree on what their mode reads stay in agreement, operation by operation and
step by step; RESET leaves a block in agreement with a fresh one; and where its conditions fail, the answers differ. -/

namespace Sys2Proof.Machine

/-! Two results side by side -/

/-- Both results stop for the same reason, or both answer, with states in the relation `R`. -/
inductive Corresponds (R : State → State → Prop) : Result → Result → Prop
  | next {u v : State} (h : R u v) : Corresponds R (.next u) (.next v)
  | fault (e : Fault) : Corresponds R (.fault e) (.fault e)
  | refused (e : Refusal) : Corresponds R (.refused e) (.refused e)

theorem Corresponds.andThen {R : State → State → Prop} {p q : Result} {f g : State → Result} (h : Corresponds R p q)
    (hfg : ∀ u v, R u v → Corresponds R (f u) (g v)) : Corresponds R (Machine.andThen p f) (Machine.andThen q g) := by
  cases h with
  | next h => exact hfg _ _ h
  | fault e => exact .fault e
  | refused e => exact .refused e

theorem Corresponds.exists_next {R : State → State → Prop} {q : Result} {u : State} (h : Corresponds R (.next u) q) :
    ∃ v, q = .next v ∧ R u v := by
  cases h with
  | next h => exact ⟨_, rfl, h⟩

theorem Corresponds.eq_fault {R : State → State → Prop} {q : Result} {e : Fault} (h : Corresponds R (.fault e) q) :
    q = .fault e := by
  cases h
  rfl

theorem Corresponds.eq_refused {R : State → State → Prop} {q : Result} {e : Refusal}
    (h : Corresponds R (.refused e) q) : q = .refused e := by
  cases h
  rfl

/-! The edge that constructs, and the answers of a sequence -/

/-- An edge with `rst = 1` constructs (rule R90). -/
theorem step_of_rst {s : State} (hr : s.pins.rst = true) : step s = .next (construct s).advance := by
  rw [step, edge, if_pos hr, andThen_next]

/-- The answers of a sequence whose first operation answers a state. -/
theorem answers_of_exec {i : Instr} {s t : State} (h : exec i s = .next t) (is : List Instr) :
    answers (i :: is) s = if i.extracts then t.respData :: answers is t else answers is t := by
  rw [answers, h]

theorem answers_of_not_extracts {i : Instr} {is : List Instr} {s t : State} (hi : i.extracts = false)
    (h : exec i s = .next t) : answers (i :: is) s = answers is t := by
  rw [answers_of_exec h, hi, if_neg (by decide)]

/-- A sequence with one extraction, at its end, answers what that extraction answers. -/
theorem answers_append_extraction {ops : List Instr} {i : Instr} {s t u : State} (h : execAll ops s = .next t)
    (hops : ∀ j ∈ ops, j.extracts = false) (hi : i.extracts = true) (hu : exec i t = .next u) :
    answers (ops ++ [i]) s = [u.respData] := by
  induction ops generalizing s with
  | nil =>
    cases h
    rw [List.nil_append, answers_of_exec hu, if_pos hi, answers]
  | cons j js ih =>
    obtain ⟨hj, hjs⟩ := List.forall_mem_cons.mp hops
    obtain ⟨v, hv, h⟩ := andThen_eq_next.mp h
    exact (answers_of_not_extracts hj hv).trans (ih h hjs)

/-! Agreement under each write of a register -/

/-- Agreement, of `lastTs` too as far as `x` holds, that is as far as XACC may read it. -/
structure AgreeTimed (x : Prop) (s t : State) : Prop extends Agree s t where
  lastTs : x → s.lastTs = t.lastTs

namespace AgreeTimed

section
variable {x : Prop} {s t : State} (h : AgreeTimed x s t)
include h

theorem mode : s.mode = t.mode := congrArg Mode.ofCode h.cfgMode

theorem setCounter (n : Int) : AgreeTimed x (s.setCounter n) (t.setCounter n) := { h with rawCounter := rfl }

theorem setPrevCode (c : SignalCode) : AgreeTimed x (s.setPrevCode c) (t.setPrevCode c) :=
  { h with prevCode := fun _ => rfl }

theorem setFsmState (r : FsmRow) : AgreeTimed x (s.setFsmState r) (t.setFsmState r) :=
  { h with fsmState := fun _ => rfl }

theorem setLastTs (n : Nat) : AgreeTimed x (s.setLastTs n) (t.setLastTs n) := { h with lastTs := fun _ => rfl }

/-- A response that is not valid may hold different data. -/
theorem setResponse {v : Bool} {d e : Int} (hd : v = true → d = e) :
    AgreeTimed x (s.setResponse v d) (t.setResponse v e) := { h with respValid := rfl, respData := hd }

theorem draw : AgreeTimed x s.draw t.draw := { h with draws := congrArg (· + 1) h.draws }

theorem advance : AgreeTimed x s.advance t.advance :=
  { h with pins := congrArg (·.headD Pins.idle) h.schedule, schedule := congrArg List.tail h.schedule }

/-- Construction samples the same configuration (rule R90). -/
theorem construct : AgreeTimed x (construct s) (construct t) :=
  { h with
    cfgMode := congrArg Pins.cfgMode h.pins
    cfgSpc := by rw [construct_cfgSpc, construct_cfgSpc, spcOf, spcOf, h.pins, h.params]
    rawCounter := rfl, prevCode := fun _ => rfl, fsmState := fun _ => rfl
    respValid := rfl, respData := fun _ => rfl, lastTs := fun _ => rfl }

/-! Agreement under each operation -/

theorem admitted {p q : Result} (hpq : Corresponds (AgreeTimed x) p q) :
    Corresponds (AgreeTimed x) (admitted s p) (admitted t q) := by
  have hbad : t.BadConfig ↔ s.BadConfig := by rw [State.BadConfig, State.BadConfig, h.mode, h.cfgSpc]
  by_cases hs : s.BadConfig
  · rw [admitted_of_bad hs, admitted_of_bad (hbad.mpr hs)]
    exact .refused _
  · rw [admitted_of_ready hs, admitted_of_ready (mt hbad.mp hs)]
    exact hpq

theorem addCount (d : Int) : Corresponds (AgreeTimed x) (addCount d s) (addCount d t) := by
  rw [Machine.addCount, Machine.addCount, h.params, h.rawCounter]
  cases satAdd t.params t.rawCounter d with
  | ok n => exact .next (h.setCounter n)
  | error e => exact .fault e

theorem stdDecode (hm : s.mode = some .standard) (c : SignalCode) :
    Corresponds (AgreeTimed x) (stdDecode c s) (stdDecode c t) := by
  have hprev := h.prevCode hm
  by_cases hc : c = s.prevCode
  · rw [stdDecode_of_eq hc, stdDecode_of_eq (hc.trans hprev)]
    exact .next h
  · rw [stdDecode_of_ne hc, stdDecode_of_ne (hprev ▸ hc), hprev]
    exact (h.addCount _).andThen fun u v huv => .next (huv.setPrevCode c)

theorem bxDecode (hm : s.mode ≠ some .standard) (table : List (List RomWord)) (c : SignalCode) :
    Corresponds (AgreeTimed x) (bxDecode table c s) (bxDecode table c t) := by
  rw [Machine.bxDecode, Machine.bxDecode, h.fsmState hm]
  cases romCell table t.fsmState c with
  | none => exact .refused _
  | some w =>
    dsimp only
    split_ifs
    · exact .next (h.setFsmState _)
    · exact (h.setFsmState _).addCount _

theorem decodeOp (c : SignalCode) : Corresponds (AgreeTimed x) (decodeOp c s) (decodeOp c t) := by
  rw [Machine.decodeOp, Machine.decodeOp, ← h.mode]
  cases hm : s.mode with
  | none => exact .refused _
  | some m =>
    cases m with
    | standard => exact h.stdDecode hm c
    | buxtonFull => exact h.bxDecode (by simp [hm]) fullRomTable c
    | buxtonHalf => exact h.bxDecode (by simp [hm]) halfRomTable c

theorem initOp (c : SignalCode) : AgreeTimed x (initOp c s) (initOp c t) := by
  rcases initOp_cases c s with ⟨hm, he⟩ | ⟨hm, he⟩ <;> rw [he]
  · rw [initOp_of_standard (h.mode ▸ hm)]
    exact h.setPrevCode c
  · rw [initOp_of_not_standard (h.mode ▸ hm)]
    exact h.setFsmState 0#3

theorem resetOp : AgreeTimed x (resetOp s) (resetOp t) := by
  rcases resetOp_cases s with ⟨hm, he⟩ | ⟨hm, he⟩ <;> rw [he]
  · rw [resetOp_of_standard (h.mode ▸ hm)]
    exact h.setCounter 0
  · rw [resetOp_of_not_standard (h.mode ▸ hm)]
    exact (h.setCounter 0).setFsmState 0#3

theorem xRaw : AgreeTimed x (xRaw s).1 (xRaw t).1 ∧ (xRaw s).2 = (xRaw t).2 := by
  rcases xRaw_cases s with ⟨hf, he⟩ | ⟨hf, he⟩ <;> rw [he]
  · rw [xRaw_of_fires (h.cfgSpc ▸ h.rawCounter ▸ hf), h.rawCounter, h.cfgSpc]
    exact ⟨h.setCounter 0, rfl⟩
  · rw [xRaw_of_not_fires (h.cfgSpc ▸ h.rawCounter ▸ hf)]
    exact ⟨h, rfl⟩

theorem scaledResult (v : Int) :
    AgreeTimed x (scaledResult v s).1 (scaledResult v t).1 ∧ (scaledResult v s).2 = (scaledResult v t).2 := by
  rw [Machine.scaledResult, Machine.scaledResult, h.params, h.draws]
  split_ifs
  · exact ⟨h, rfl⟩
  · exact ⟨h.draw, rfl⟩

/-- XACC reads `lastTs`. -/
theorem xAcc (hx : x) (n : Nat) : AgreeTimed x (xAcc n s).1 (xAcc n t).1 ∧ (xAcc n s).2 = (xAcc n t).2 := by
  obtain ⟨hraw, hresult⟩ := h.xRaw
  rw [Machine.xAcc, Machine.xAcc, hresult, h.params, h.lastTs hx]
  split_ifs
  · exact ⟨hraw, rfl⟩
  · exact (hraw.setLastTs n).scaledResult _

theorem nowOf : nowOf s = nowOf t := by rw [Machine.nowOf, Machine.nowOf, h.pins, h.params]

/-- Every operation keeps two blocks in agreement, XACC where `lastTs` agrees (rule R77). -/
theorem exec {i : Instr} (hi : i = .xacc → x) : Corresponds (AgreeTimed x) (exec i s) (exec i t) := by
  cases i with
  | nop port =>
    cases port
    · exact h.admitted (.next h)
    · exact h.admitted (.next (h.setResponse nofun))
  | decode c => exact h.admitted (h.decodeOp c)
  | init c => exact h.admitted (.next ((h.initOp c).setResponse nofun))
  | reset => exact h.admitted (.next (h.resetOp.setResponse nofun))
  | xraw =>
    obtain ⟨hraw, hresult⟩ := h.xRaw
    exact h.admitted (.next (hraw.setResponse fun _ => hresult))
  | xnorm =>
    obtain ⟨hraw, hresult⟩ := h.xRaw
    exact h.admitted (.next (hraw.setResponse fun _ => congrArg Int.sign hresult))
  | xacc =>
    obtain ⟨hacc, hresult⟩ := h.xAcc (hi rfl) (Machine.nowOf s)
    rw [exec_xacc, exec_xacc, ← h.nowOf]
    exact h.admitted (.next (hacc.setResponse fun _ => hresult))

/-- Two operations, after which the input ports move on. -/
theorem exec_exec {i j : Instr} (hi : i = .xacc → x) (hj : j = .xacc → x) :
    Corresponds (AgreeTimed x)
      (andThen (Machine.exec i s) fun u => andThen (Machine.exec j u) fun v => .next v.advance)
      (andThen (Machine.exec i t) fun u => andThen (Machine.exec j u) fun v => .next v.advance) :=
  (h.exec hi).andThen fun _ _ hu => (hu.exec hj).andThen fun _ _ hv => .next hv.advance

/-- Every step keeps two blocks in agreement. -/
theorem step (hx : consumerInstr s = .xacc → x) : Corresponds (AgreeTimed x) (step s) (step t) := by
  have hp (hi : producerInstr s = .xacc) : x := absurd hi (producerInstr_ne_xacc s)
  have hci : consumerInstr t = consumerInstr s := by rw [consumerInstr, consumerInstr, h.pins]
  have hpi : producerInstr t = producerInstr s := by rw [producerInstr, producerInstr, h.pins]
  cases hr : s.pins.rst with
  | true =>
    rw [step_of_rst hr, step_of_rst (h.pins ▸ hr)]
    exact .next h.construct.advance
  | false =>
    have hr' : t.pins.rst = false := h.pins ▸ hr
    cases ho : s.params.order with
    | consumerFirst =>
      rw [step_of_consumerFirst hr ho, step_of_consumerFirst hr' (h.params ▸ ho), hci, hpi]
      exact h.exec_exec hx hp
    | producerFirst =>
      rw [step_of_producerFirst hr ho, step_of_producerFirst hr' (h.params ▸ ho), hci, hpi]
      exact h.exec_exec hp hx

end

/-- The extractions of a sequence answer the same on two blocks in agreement. -/
theorem answers {x : Prop} {ops : List Instr} {s t : State} (h : AgreeTimed x s t) (hops : .xacc ∈ ops → x) :
    answers ops s = answers ops t := by
  induction ops generalizing s t with
  | nil => rfl
  | cons i is ih =>
    have hi := h.exec (i := i) fun he => hops (he ▸ List.mem_cons_self)
    cases hs : Machine.exec i s <;> rw [hs] at hi
    case next u =>
      obtain ⟨v, ht, huv⟩ := hi.exists_next
      have hrest := ih huv fun hmem => hops (List.mem_cons_of_mem i hmem)
      have hdata (he : i.extracts = true) : u.respData = v.respData :=
        huv.respData ((exec_consumer_response (legalOn_consumer_of_extracts he) hs).1.trans he)
      rw [answers_of_exec hs, answers_of_exec ht, hrest]
      split_ifs with he
      · rw [hdata he]
      · rfl
    case fault e => rw [Machine.answers, Machine.answers, hs, hi.eq_fault]
    case refused e => rw [Machine.answers, Machine.answers, hs, hi.eq_refused]

end AgreeTimed

/-! RESET and a fresh block -/

/-- The block constructed afresh in its own configuration (rules R77, R90). -/
def State.fresh (s : State) : State :=
  { s with prevCode := 0b00#2, fsmState := 0#3, rawCounter := 0, lastTs := 0, respValid := false, respData := 0 }

/-- A block with its counter and response cleared agrees with the fresh one, for decoder registers that agree where
the mode reads them. -/
theorem agreeTimed_fresh {s : State} {p q : SignalCode} {r k : FsmRow} {d e : Int}
    (hp : s.mode = some .standard → p = q) (hr : s.mode ≠ some .standard → r = k) :
    AgreeTimed (s.lastTs = 0) ((((s.setCounter 0).setPrevCode p).setFsmState r).setResponse false d)
      (((s.fresh.setPrevCode q).setFsmState k).setResponse false e) where
  params := rfl
  cfgMode := rfl
  cfgSpc := rfl
  pins := rfl
  schedule := rfl
  draws := rfl
  rawCounter := rfl
  prevCode := hp
  fsmState := hr
  respValid := rfl
  respData := nofun
  lastTs := id

/-- RESET leaves a block in agreement with the fresh one INIT leaves: a Buxton block in row 0, a Standard block where
its `prevCode` is the sample. -/
theorem agreeTimed_reset_init {s r g : State} {c : SignalCode} (hr : exec .reset s = .next r)
    (hg : exec (.init c) s.fresh = .next g) (hc : s.mode = some .standard → s.prevCode = c) :
    AgreeTimed (s.lastTs = 0) r g := by
  have hready := exec_next_ready hr
  by_cases hm : s.mode = some .standard
  · cases hr.symm.trans (exec_reset_of_standard hready hm)
    cases hg.symm.trans (exec_init_of_standard (s := s.fresh) hready hm c)
    exact agreeTimed_fresh hc fun hn => absurd hm hn
  · cases hr.symm.trans (exec_reset_of_not_standard hready hm)
    cases hg.symm.trans (exec_init_of_not_standard (s := s.fresh) hready hm c)
    exact agreeTimed_fresh (fun hs => absurd hs hm) fun _ => rfl

/-- Settles O59: RESET establishes the agreement, with `lastTs` where it is 0, and every step keeps it. -/
theorem resetAgreesWithFreshBlock : Obligations.ResetAgreesWithFreshBlock := by
  constructor
  · rintro s _ r g c - rfl hr hg hc
    have hrg := agreeTimed_reset_init hr hg hc
    exact ⟨hrg.toAgree, hrg.lastTs⟩
  · intro s t u h hx hu
    have hst : AgreeTimed (s.lastTs = t.lastTs) s t := { h with lastTs := id }
    have hstep := hst.step fun hi => hx.resolve_right (not_not_intro hi)
    rw [hu] at hstep
    obtain ⟨v, hv, huv⟩ := hstep.exists_next
    exact ⟨v, hv, huv.toAgree, huv.lastTs⟩

/-- Settles O46: RESET establishes the agreement, and blocks in agreement answer every sequence alike. -/
theorem resetMatchesFreshBlock : Obligations.ResetMatchesFreshBlock := by
  rintro s _ r g c ops - rfl hr hg hc hops
  refine (agreeTimed_reset_init hr hg hc).answers fun hmem => ?_
  exact hops.resolve_left fun hno => hno _ hmem rfl

/-! Where the conditions of rule R77 fail -/

/-- DECODE and XRAW on a Standard block with divisor 1 and an empty counter answer the entry of `STD_ROM`. -/
theorem answers_decode_xraw {s : State} {c : SignalCode} {d : Int} (hlegal : s.params.Legal) (hr : s.Ready)
    (hm : s.mode = some .standard) (hspc : s.cfgSpc = 1) (hzero : s.rawCounter = 0)
    (hd : stdDelta s.prevCode c = d) : answers [.decode c, .xraw] s = [d] := by
  have hcount : s.rawCounter + stdDelta s.prevCode c = d := by rw [hzero, Int.zero_add, hd]
  have hroom : d.natAbs ≤ s.params.cntMax := hd ▸ (stdDelta_natAbs_le _ _).trans (one_le_cntMax hlegal)
  have hdecode := exec_decode_standard (c := c) hr hm (hcount ▸ hroom)
  have hxraw := exec_xraw_of_ready (s := (s.setCounter (s.rawCounter + stdDelta s.prevCode c)).setPrevCode c) hr
  calc answers [.decode c, .xraw] s
    _ = answers ([] ++ [.xraw]) _ := answers_of_not_extracts rfl hdecode
    _ = [tdiv (s.rawCounter + stdDelta s.prevCode c) s.cfgSpc] :=
      answers_append_extraction rfl (List.forall_mem_nil _) rfl hxraw
    _ = [d] := by rw [hspc, tdiv_one, hcount]

/-- XACC of one click with the defaults answers the multiplier of the time since `lastTs`. -/
theorem exec_xacc_of_one_click {s : State} (hr : s.Ready) (hspc : s.cfgSpc = 1) (hp : s.params = Params.default)
    (hone : s.rawCounter = 1) :
    ∃ u, exec .xacc s = .next u ∧
      u.respData = (accelMul Params.default (elapsed Params.default (nowOf s) s.lastTs) : Int) := by
  have hproduct : accelProduct s = (accelMul Params.default (elapsed Params.default (nowOf s) s.lastTs) : Int) := by
    rw [accelProduct, hspc, tdiv_one, hone, Int.one_mul, hp]
  have hfits : fitsResp s.params (accelProduct s) := by
    have hmul := accelMul_le (p := Params.default) (m := 4) (by decide) (by decide) (by decide)
    rw [hproduct, hp]
    refine fitsResp_of_natAbs_le_mul (m := 4) (by decide) le_rfl ?_
    rw [Int.natAbs_natCast]
    exact (hmul _).trans (by decide)
  exact ⟨_, exec_xacc_of_fits hr (by rw [hspc, hone]; decide) hfits, hproduct⟩

/-- RESET, one electrical cycle and XACC on a Buxton-Full block with the defaults answer the multiplier of the time
since `lastTs`, which RESET and DECODE keep. -/
theorem answers_reset_cwCycle_xacc {s : State} (hr : s.Ready) (hm : s.mode = some .buxtonFull) (hspc : s.cfgSpc = 1)
    (hp : s.params = Params.default) :
    answers (.reset :: (cwCodes.map .decode ++ [.xacc])) s =
      [(accelMul Params.default (elapsed Params.default (nowOf s) s.lastTs) : Int)] := by
  have hroom : (0 : Int).natAbs + cwCodes.length ≤ s.params.cntMax := by rw [hp]; decide
  have hpath : romTrace fullRomTable 0#3 cwCodes = some (0#3, 1) := by decide
  have hcycle := execAll_decode_buxton_of_return
    (s := ((s.setCounter 0).setFsmState 0#3).setResponse false s.respData) hr hm nofun hroom hpath
  obtain ⟨u, hu, hdata⟩ := exec_xacc_of_one_click
    (s := (((s.setCounter 0).setFsmState 0#3).setResponse false s.respData).setCounter 1) hr hspc hp rfl
  calc answers (.reset :: (cwCodes.map .decode ++ [.xacc])) s
    _ = answers (cwCodes.map .decode ++ [.xacc]) _ :=
      answers_of_not_extracts rfl (exec_reset_of_not_standard hr (by simp [hm]))
    _ = [u.respData] := answers_append_extraction hcycle (by decide) rfl hu
    _ = [(accelMul Params.default (elapsed Params.default (nowOf s) s.lastTs) : Int)] := congrArg ([·]) hdata

/-- Settles O47: RESET keeps `prevCode`, and `STD_ROM` has -1 from 11 to 01 and +1 from 00 to 01; it keeps `lastTs`,
which is 10 ms or 1010 ms before the XACC. -/
theorem resetConditionsAreNeeded : Obligations.ResetConditionsAreNeeded := by
  refine ⟨fun s hlegal hr hm hspc hprev => ⟨?_, ?_⟩, fun s hr hm hspc hp hnow => ?_⟩
  · have hdelta : stdDelta s.prevCode 0b01#2 = -1 := by rw [hprev]; decide
    calc answers [.reset, .decode 0b01#2, .xraw] s
      _ = answers [.decode 0b01#2, .xraw] _ := answers_of_not_extracts rfl (exec_reset_of_standard hr hm)
      _ = [-1] := answers_decode_xraw hlegal hr hm hspc rfl hdelta
  · have hinit := exec_init_of_standard (s := (s.setCounter 0).setResponse false s.respData) hr hm 0b00#2
    have hdelta : stdDelta 0b00#2 0b01#2 = 1 := by decide
    calc answers [.reset, .init 0b00#2, .decode 0b01#2, .xraw] s
      _ = answers [.init 0b00#2, .decode 0b01#2, .xraw] _ :=
        answers_of_not_extracts rfl (exec_reset_of_standard hr hm)
      _ = answers [.decode 0b01#2, .xraw] _ := answers_of_not_extracts rfl hinit
      _ = [1] := answers_decode_xraw hlegal hr hm hspc rfl hdelta
  · have hnow : nowOf s = 1010 := by rw [nowOf, hnow, hp]; decide
    rw [List.cons_append, answers_reset_cwCycle_xacc hr hm hspc hp, hnow]
    exact ⟨fun hts => by rw [hts]; decide, fun hts => by rw [hts]; decide⟩

end Sys2Proof.Machine
end

section
/-! PROOFS. No exceptions (rules R79, R86, R101): under the saturating policy an admitted block never stops, and
`now_ms` reaches no operation but XACC. -/

namespace Sys2Proof.Machine

/-! What keeps a block running -/

/-- A block that goes on: admitted, in the invariant, saturating, and with legal constructions alone to come. -/
structure State.Live (s : State) : Prop where
  inv : s.Inv
  ready : s.Ready
  saturates : s.params.overflow = .saturate
  constructions : ∀ x ∈ s.pins :: s.schedule, x.rst = true → x.configOk s.params = true

/-- A legal configuration names a mode, and in Standard a nonzero divisor (rules R45, R46). -/
theorem configOk_iff {p : Params} {x : Pins} :
    x.configOk p = true ↔
      Mode.ofCode x.cfgMode ≠ none ∧ (Mode.ofCode x.cfgMode = some .standard → x.cfgSpc % 2 ^ p.stepsW ≠ 0) := by
  unfold Pins.configOk
  cases Mode.ofCode x.cfgMode with
  | none => simp
  | some m => cases m <;> simp

/-- Construction from a legal configuration leaves a block that may run (rule R91). -/
theorem construct_ready {s : State} (h : s.pins.configOk s.params = true) : (construct s).Ready := by
  obtain ⟨hmode, hspc⟩ := configOk_iff.mp h
  rintro (hnone | hzero)
  · exact hmode hnone
  · rw [construct_cfgSpc] at hzero
    split_ifs at hzero with hstd
    exact hspc ((State.mode_eq_standard_iff (construct s)).mpr hstd) hzero

theorem State.Live.construct {s : State} (h : s.Live) (hr : s.pins.rst = true) : (construct s).Live where
  inv := construct_inv h.inv.legal
  ready := construct_ready (h.constructions s.pins List.mem_cons_self hr)
  saturates := h.saturates
  constructions := h.constructions

/-- The next input values are an entry of the schedule, or an idle cycle, which constructs nothing. -/
theorem State.Live.advance {s : State} (h : s.Live) : s.advance.Live where
  inv := h.inv.advance
  ready := h.ready
  saturates := h.saturates
  constructions x hx := by
    rw [State.advance_pins, State.advance_schedule] at hx
    cases hsched : s.schedule with
    | nil =>
      rw [hsched] at hx
      cases List.mem_singleton.mp hx
      exact nofun
    | cons y ys =>
      rw [hsched] at hx
      exact h.constructions x (List.mem_cons_of_mem _ (hsched ▸ hx))

/-- Every operation of a consumer answers on an admitted block, and so does every operation of a producer under the
saturating policy (rule R79). -/
theorem State.Live.exec_completes {s : State} (h : s.Live) (i : Instr) : ∃ t, exec i s = .next t := by
  cases hport : i.port with
  | consumer => exact ⟨_, exec_eq_ruleConsumerOp h.ready (legalOn_iff.mpr hport.symm)⟩
  | producer =>
    rcases eq_of_legalOn_producer (legalOn_iff.mpr hport.symm) with rfl | ⟨c, rfl⟩
    · exact ⟨s, exec_nop_producer_of_ready h.ready⟩
    · exact decodeCompletes s c h.inv h.ready h.saturates

theorem State.Live.of_exec {i : Instr} {s t : State} (h : s.Live) (ht : exec i s = .next t) : t.Live where
  inv := exec_inv h.inv ht
  ready := exec_ready ht
  saturates := (exec_sameConfig ht).params ▸ h.saturates
  constructions := by
    obtain ⟨hparams, -, -, hpins, hschedule⟩ := exec_sameConfig ht
    rw [hparams, hpins, hschedule]
    exact h.constructions

/-- Two operations one after the other, after which the input ports move on. -/
theorem State.Live.exec_exec {s : State} (h : s.Live) (i j : Instr) :
    ∃ t, (andThen (exec i s) fun u => andThen (exec j u) fun v => .next v.advance) = .next t ∧ t.Live := by
  obtain ⟨u, hu⟩ := h.exec_completes i
  obtain ⟨v, hv⟩ := (h.of_exec hu).exec_completes j
  exact ⟨v.advance, by rw [hu, andThen_next, hv, andThen_next], ((h.of_exec hu).of_exec hv).advance⟩

/-- Every edge answers, and leaves a block that goes on (rule R101). -/
theorem State.Live.step {s : State} (h : s.Live) : ∃ t, step s = .next t ∧ t.Live := by
  cases hr : s.pins.rst with
  | true => exact ⟨_, step_of_rst hr, (h.construct hr).advance⟩
  | false =>
    cases ho : s.params.order with
    | consumerFirst => exact step_of_consumerFirst hr ho ▸ h.exec_exec _ _
    | producerFirst => exact step_of_producerFirst hr ho ▸ h.exec_exec _ _

theorem State.Live.run {s : State} (h : s.Live) (k : Nat) : ∃ t, run k s = .next t ∧ t.Live := by
  induction k generalizing s with
  | zero => exact ⟨s, rfl, h⟩
  | succ k ih =>
    obtain ⟨u, hu, hlive⟩ := h.step
    obtain ⟨t, ht, hlive⟩ := ih hlive
    exact ⟨t, andThen_eq_next.mpr ⟨u, hu, ht⟩, hlive⟩

/-- Settles O57: by induction on the number of edges; each edge, construction or cycle, leaves what lets the next one
answer. -/
theorem admittedRunsNeverStop : Obligations.AdmittedRunsNeverStop := by
  intro k s hinv hready hsat hcons
  obtain ⟨t, ht, hlive⟩ := State.Live.run ⟨hinv, hready, hsat, hcons⟩ k
  exact ⟨t, ht, hlive.inv, hlive.ready⟩

/-! Who reads `now_ms` -/

/-- Admission reads no input port. -/
theorem admitted_setPins {s : State} {x : Pins} {p q : Result} (h : q = andThen p fun t => .next (t.setPins x)) :
    admitted (s.setPins x) q = andThen (admitted s p) fun t => .next (t.setPins x) := by
  by_cases hr : s.Ready
  · rw [admitted_of_ready hr, admitted_of_ready (s := s.setPins x) hr, h]
  · have hb : s.BadConfig := not_not.mp hr
    rw [admitted_of_bad hb, admitted_of_bad (s := s.setPins x) hb, andThen_refused]

/-- An operation other than XACC reads no input port at all (rules R39, R86). -/
theorem exec_setPins_of_ne_xacc {i : Instr} (hi : i ≠ .xacc) (s : State) (x : Pins) :
    exec i (s.setPins x) = andThen (exec i s) fun t => .next (t.setPins x) := by
  cases i with
  | nop port => cases port <;> exact admitted_setPins rfl
  | decode c => exact admitted_setPins ((unseenByDecode_setPins x).decodeOp_comm c s)
  | init c =>
    rw [exec_init, initOp_setPins]
    exact admitted_setPins rfl
  | reset =>
    rw [exec_reset, resetOp_setPins]
    exact admitted_setPins rfl
  | xraw =>
    rw [exec_xraw, xRaw_setPins]
    exact admitted_setPins rfl
  | xnorm =>
    rw [exec_xnorm, xRaw_setPins]
    exact admitted_setPins rfl
  | xacc => exact absurd rfl hi

/-- Two operations other than XACC on other input values, after which the input ports move on. -/
theorem exec_exec_setPins_of_ne_xacc {i j : Instr} (hi : i ≠ .xacc) (hj : j ≠ .xacc) (s : State) (x : Pins) :
    (andThen (exec i (s.setPins x)) fun t => andThen (exec j t) fun u => .next u.advance) =
      andThen (exec i s) fun t => andThen (exec j t) fun u => .next u.advance := by
  rw [exec_setPins_of_ne_xacc hi, andThen_assoc]
  refine andThen_congr fun t _ => ?_
  rw [andThen_next, exec_setPins_of_ne_xacc hj, andThen_assoc]
  rfl

/-- Settles O6: construction samples the configuration alone; in a cycle without XACC neither operation reads the
time, and the next edge has its own. -/
theorem clockReadOnlyByXacc : Obligations.ClockReadOnlyByXacc := by
  intro s n h
  change step (s.setPins { s.pins with nowMs := n }) = step s
  cases hr : s.pins.rst with
  | true => exact (step_of_rst (s := s.setPins { s.pins with nowMs := n }) hr).trans (step_of_rst hr).symm
  | false =>
    have hc : consumerInstr s ≠ .xacc := h.resolve_left (Bool.eq_false_iff.mp hr)
    have hp := producerInstr_ne_xacc s
    cases ho : s.params.order with
    | consumerFirst =>
      rw [step_of_consumerFirst hr ho, step_of_consumerFirst (s := s.setPins { s.pins with nowMs := n }) hr ho]
      exact exec_exec_setPins_of_ne_xacc hc hp s _
    | producerFirst =>
      rw [step_of_producerFirst hr ho, step_of_producerFirst (s := s.setPins { s.pins with nowMs := n }) hr ho]
      exact exec_exec_setPins_of_ne_xacc hp hc s _

end Sys2Proof.Machine
end

section
/-! PROOFS. Construction, boot and hazards (rules R90 to R95, R98): what an edge with `rst = 1` leaves, which
configurations run from it, and what the tables answer where edges are missed or the block does not rest at row 0. -/

namespace Sys2Proof.Machine

/-! An edge with `rst = 0` -/

/-- An edge with `rst = 0` is a cycle (rule R90). -/
theorem step_of_not_rst {s : State} (hr : s.pins.rst = false) :
    step s = andThen (cycle s) fun t => .next t.advance := by
  rw [step, edge, hr, if_neg (by decide)]

/-- No cycle writes the configuration (rules R13, R98). -/
theorem step_config_of_not_rst {s t : State} (hr : s.pins.rst = false) (h : step s = .next t) :
    t.cfgMode = s.cfgMode ∧ t.cfgSpc = s.cfgSpc := by
  have config {i j : Instr} {u v : State} (hu : exec i s = .next u) (hv : exec j u = .next v) :
      v.advance.cfgMode = s.cfgMode ∧ v.advance.cfgSpc = s.cfgSpc :=
    ⟨(exec_sameConfig hv).cfgMode.trans (exec_sameConfig hu).cfgMode,
      (exec_sameConfig hv).cfgSpc.trans (exec_sameConfig hu).cfgSpc⟩
  rcases step_next h with ⟨hr', -⟩ | ⟨-, -, u, v, hu, hv, rfl⟩ | ⟨-, -, u, v, hu, hv, rfl⟩
  · cases hr.symm.trans hr'
  · exact config hu hv
  · exact config hu hv

/-- Settles O2: construction overwrites every register from the input ports, so a construction before it leaves no
trace; an edge with `rst = 0` is a cycle, which writes no configuration. -/
theorem constructionSetsEveryRegister : Obligations.ConstructionSetsEveryRegister := by
  refine ⟨fun s hr => step_of_rst hr, fun s t hr h ht => ?_, fun s t _ _ ht => step_of_not_rst ht,
    fun s t => step_config_of_not_rst⟩
  rw [step_of_rst hr] at h
  cases h
  exact (step_of_rst ht).trans
    (step_of_rst (s := { s with pins := (construct s).advance.pins, schedule := (construct s).advance.schedule }) ht).symm

/-- Settles O5: a cycle reads of its input ports the words and the time alone, and writes no configuration. -/
theorem configurationReadOnlyDuringConstruction : Obligations.ConfigurationReadOnlyDuringConstruction := by
  refine ⟨fun s m n hr => step_setPins (x := { s.pins with cfgMode := m, cfgSpc := n }) hr hr rfl rfl rfl,
    fun s t h hne => ?_⟩
  cases hr : s.pins.rst with
  | true =>
    rw [step_of_rst hr] at h
    cases h
    exact ⟨rfl, rfl, rfl, rfl, rfl, rfl, rfl⟩
  | false =>
    obtain ⟨hmode, hspc⟩ := step_config_of_not_rst hr h
    exact hne.elim (absurd hmode) (absurd hspc)

/-! Bad configurations -/

/-- Settles O4: admission stands before every operation. -/
theorem noOperationWithoutAdmission : Obligations.NoOperationWithoutAdmission :=
  fun i _ hb => exec_of_not_ready (not_not_intro hb) i

/-- A bad configuration has no cycle: the first of the two operations is refused (rule R91). -/
theorem step_of_bad {s : State} (hr : s.pins.rst = false) (hb : s.BadConfig) :
    step s = .refused .badConfiguration := by
  cases ho : s.params.order with
  | consumerFirst => rw [step_of_consumerFirst hr ho, exec_of_not_ready (not_not_intro hb), andThen_refused]
  | producerFirst => rw [step_of_producerFirst hr ho, exec_of_not_ready (not_not_intro hb), andThen_refused]

/-! The first cycle of a Buxton block -/

/-- A DECODE in row 0 of a Buxton table answers under either overflow policy, for that row counts nothing. -/
theorem exec_decode_completes_of_row_zero {m : Mode} {s : State} (hr : s.Ready) (hm : s.mode = some m)
    (hne : m ≠ .standard) (hrow : s.fsmState = 0#3) (c : SignalCode) : ∃ t, exec (.decode c) s = .next t := by
  obtain ⟨w, hw⟩ := romCell_of_lt_rowCount hne (r := 0#3) (rowCount_pos _) c
  have hd : romDelta w = 0 := romDelta_eq_zero_of_row (.inl rfl) hw
  exact ⟨_, (exec_decode_eq_bxDecode hr hm hne c).trans (bxDecode_of_romDelta_eq_zero (hrow ▸ hw) hd)⟩

theorem exec_producer_completes_of_row_zero {m : Mode} {i : Instr} {s : State} (hi : i.legalOn .producer = true)
    (hr : s.Ready) (hm : s.mode = some m) (hne : m ≠ .standard) (hrow : s.fsmState = 0#3) :
    ∃ t, exec i s = .next t := by
  rcases eq_of_legalOn_producer hi with rfl | ⟨c, rfl⟩
  · exact ⟨s, exec_nop_producer_of_ready hr⟩
  · exact exec_decode_completes_of_row_zero hr hm hne hrow c

/-- A consumer operation keeps row 0: of the consumer's operations INIT and RESET alone write `fsmState`, and they
select row 0 (rules R75, R76). -/
theorem exec_consumer_keeps_row_zero {i : Instr} {s t : State} (hi : i.legalOn .consumer = true)
    (hrow : s.fsmState = 0#3) (h : exec i s = .next t) : t.fsmState = 0#3 := by
  by_contra hne
  obtain ⟨-, -, -, -, -, -, hwriters, -⟩ := registerWriters s t i h
  obtain ⟨hm, rfl | ⟨c, rfl | rfl⟩⟩ := hwriters (hrow ▸ hne)
  · rw [exec_reset_of_not_standard (exec_next_ready h) hm] at h
    cases h
    exact hne rfl
  · cases hi
  · rw [exec_init_of_not_standard (exec_next_ready h) hm] at h
    cases h
    exact hne rfl

/-- A cycle of an admitted Buxton block in row 0 answers, in either order of its operations. -/
theorem step_completes_of_row_zero {m : Mode} {s : State} (hrst : s.pins.rst = false) (hr : s.Ready)
    (hm : s.mode = some m) (hne : m ≠ .standard) (hrow : s.fsmState = 0#3) : ∃ t, step s = .next t := by
  have hci := consumerInstr_legalOn s
  have hpi := producerInstr_legalOn s
  cases ho : s.params.order with
  | consumerFirst =>
    have hu := exec_eq_ruleConsumerOp hr hci
    obtain ⟨v, hv⟩ := exec_producer_completes_of_row_zero hpi (exec_ready hu)
      ((exec_sameConfig hu).mode.trans hm) hne (exec_consumer_keeps_row_zero hci hrow hu)
    exact ⟨_, by rw [step_of_consumerFirst hrst ho, hu, andThen_next, hv, andThen_next]⟩
  | producerFirst =>
    obtain ⟨u, hu⟩ := exec_producer_completes_of_row_zero hpi hr hm hne hrow
    exact ⟨_, by rw [step_of_producerFirst hrst ho, hu, andThen_next,
      exec_eq_ruleConsumerOp (exec_ready hu) hci, andThen_next]⟩

/-- Construction in a Buxton mode leaves an admitted block, whatever the divisor (rule R91). -/
theorem construct_ready_of_buxton {m : Mode} {s : State} (hcode : s.pins.cfgMode = m.code) (hne : m ≠ .standard) :
    (construct s).Ready := by
  refine construct_ready (configOk_iff.mpr ?_)
  rw [hcode, ofCode_code]
  exact ⟨nofun, fun hstd => absurd (Option.some.inj hstd) hne⟩

/-- Settles O3: construction stores the bad mode code or divisor, which the cycle refuses; a Buxton construction leaves
an admitted block in row 0. -/
theorem badConfigurationsRefusedAtRelease : Obligations.BadConfigurationsRefusedAtRelease := by
  intro s u _ hrst h hu
  rw [step_of_rst hrst] at h
  cases h
  have runs {m : Mode} (hcode : s.pins.cfgMode = m.code) (hne : m ≠ .standard) :
      ∃ t, step (construct s).advance = .next t :=
    step_completes_of_row_zero hu (construct_ready_of_buxton hcode hne) (mode_of_cfgMode hcode) hne rfl
  refine ⟨fun hcode => step_of_bad hu (.inl ?_), fun hcode hspc => step_of_bad hu (.inr ?_), ?_⟩
  · rw [State.mode, State.advance_cfgMode, construct_cfgMode, hcode]
    rfl
  · exact (if_pos hcode).trans hspc
  · rintro (hcode | hcode)
    · exact runs (m := .buxtonFull) hcode nofun
    · exact runs (m := .buxtonHalf) hcode nofun

/-! Boot -/

/-- Settles O45: construction has cleared the validity of the response and selected row 0, the only other registers
INIT writes. -/
theorem bootSequence : Obligations.BootSequence := by
  intro s t c hrst h hr
  rw [step_of_rst hrst] at h
  cases h
  exact ⟨fun hm => exec_init_of_standard hr hm c, fun hm => exec_init_of_not_standard hr hm c⟩

/-! Missed edges, and rest at code 00 -/

/-- Settles O31: `STD_ROM` has three steps of +1 along the positive moves, -1 from 00 to 10 and 0 from 00 to 11. -/
theorem missedEdgesMiscount : Obligations.MissedEdgesMiscount := by
  intro s hr hm hprev hn
  have count {cs d} (hlen : cs.length ≤ 3) (hd : stdCount 0b00#2 cs = d) : execAll (cs.map .decode) s =
      .next ((s.setCounter (s.rawCounter + d)).setPrevCode (cs.getLastD 0b00#2)) := by
    rw [execAll_decode_standard hr hm (by omega), hprev, hd]
  refine ⟨count (by decide) (by decide), count (by decide) (by decide), ?_⟩
  rw [count (d := 0) (by decide) (by decide), Int.add_zero]
  rfl

/-- A legal counter holds seven micro-steps (rule R6). -/
theorem seven_le_cntMax {p : Params} (h : p.Legal) : 7 ≤ p.cntMax := by
  obtain ⟨hw, -⟩ := h
  have hpow : 2 ^ 3 ≤ 2 ^ (p.counterW - 1) := Nat.pow_le_pow_right (by decide) (by omega)
  unfold Params.cntMax
  omega

section
variable {m : Mode} {s : State} {cs : List SignalCode} {r : FsmRow} {d : Int} (hlegal : s.params.Legal) (hr : s.Ready)
  (hm : s.mode = some m) (hne : m ≠ .standard) (hrow : s.fsmState = 0#3) (hzero : s.rawCounter = 0)
  (hlen : cs.length ≤ 7)
include hlegal hr hm hne hrow hzero hlen

/-- From row 0 with an empty counter up to seven DECODEs leave what the table leads to. -/
theorem execAll_decode_of_rest (ht : romTrace (romOf m) 0#3 cs = some (r, d)) :
    execAll (cs.map .decode) s = .next { s with fsmState := r, rawCounter := d } := by
  have hn : s.rawCounter.natAbs + cs.length ≤ s.params.cntMax := by
    have := seven_le_cntMax hlegal
    omega
  rw [execAll_decode_buxton hr hm hne (hrow ▸ ht) hn, hzero, Int.zero_add]
  rfl

/-- Where those DECODEs count nothing, they move the automaton alone. -/
theorem execAll_decode_of_rest_quiet (ht : romTrace (romOf m) 0#3 cs = some (r, 0)) :
    execAll (cs.map .decode) s = .next { s with fsmState := r } := by
  rw [execAll_decode_of_rest hlegal hr hm hne hrow hzero hlen ht, ← hzero]

/-- Where those DECODEs end in row 0 again, they change the counter alone. -/
theorem execAll_decode_of_rest_return (ht : romTrace (romOf m) 0#3 cs = some (0#3, d)) :
    execAll (cs.map .decode) s = .next { s with rawCounter := d } := by
  rw [execAll_decode_of_rest hlegal hr hm hne hrow hzero hlen ht, ← hrow]

end

/-- Settles O30: the paths through either table from row 0, up to the first cell with a flag. -/
theorem firstCountAfterRestAt00 : Obligations.FirstCountAfterRestAt00 := by
  intro s hlegal hr hrow hzero
  refine ⟨fun hm => ?_, fun hm => ?_⟩
  · have quiet {cs r} (hlen : cs.length ≤ 7) (ht : romTrace fullRomTable 0#3 cs = some (r, 0)) :=
      execAll_decode_of_rest_quiet hlegal hr hm nofun hrow hzero hlen ht
    have count {cs d} (hlen : cs.length ≤ 7) (ht : romTrace fullRomTable 0#3 cs = some (0#3, d)) :=
      execAll_decode_of_rest_return hlegal hr hm nofun hrow hzero hlen ht
    exact ⟨quiet (by decide) (by decide), count (by decide) (by decide), quiet (by decide) (by decide),
      count (by decide) (by decide)⟩
  · have quiet {cs r} (hlen : cs.length ≤ 7) (ht : romTrace halfRomTable 0#3 cs = some (r, 0)) :=
      execAll_decode_of_rest_quiet hlegal hr hm nofun hrow hzero hlen ht
    have count {cs r d} (hlen : cs.length ≤ 7) (ht : romTrace halfRomTable 0#3 cs = some (r, d)) :=
      execAll_decode_of_rest hlegal hr hm nofun hrow hzero hlen ht
    exact ⟨quiet (by decide) (by decide), count (by decide) (by decide), quiet (by decide) (by decide),
      count (by decide) (by decide)⟩

end Sys2Proof.Machine
end
